-- ==== Sys2Proof/Word.lean ====
section
/-! DEFINITION. The core's two word types: every datum is one byte, every command word 16 bits. -/

namespace Sys2Proof

/-- Every data value, bus transfer and buffer element (spec R7 `BYTE`, R53). -/
abbrev Byte := BitVec 8

/-- A command word (spec R7 `CW_WIDTH`, R70). -/
abbrev Word := BitVec 16

/-- A four-bit field: the OP and RSV fields of a command word (R70), a status code (R201). -/
abbrev Nibble := BitVec 4

end Sys2Proof
end

