-- ==== Sys2Proof/Machine/Operands.lean ====
section
/-! DEFINITION. The one operand form: the fields of a command word (R70, R71), and bit reversal (R100). -/

namespace Sys2Proof.Machine

/-- The OP field, `CW[15:12]` (R70). -/
def cwOp (cw : Word) : Nibble := cw.extractLsb' 12 4

/-- The RSV field, `CW[11:8]` (R70). -/
def cwRsv (cw : Word) : Nibble := cw.extractLsb' 8 4

/-- The ARG field, `CW[7:0]`: an unsigned byte, no extension, scaling or shift (R70, R71). -/
def cwArg (cw : Word) : Byte := cw.extractLsb' 0 8

/-- `CW = OP << 12 | ARG`, with RSV = 0 (R70, R91). -/
def makeWord (op : Nibble) (arg : Byte) : Word := op ++ (0#4 ++ arg)

/-- Bit i of a byte, as a one-bit vector (R8). -/
def bitOf (a : Byte) (i : Nat) : BitVec 1 := a.extractLsb' i 1

/-- `brev8(a) = a[0], a[1], …, a[7]` concatenated, `a[0]` as the new bit 7 (R100). -/
def brev8 (a : Byte) : Byte :=
  bitOf a 0 ++ (bitOf a 1 ++ (bitOf a 2 ++ (bitOf a 3 ++
    (bitOf a 4 ++ (bitOf a 5 ++ (bitOf a 6 ++ bitOf a 7))))))

/-- The free-standing BREV8 unit: `brev_out` follows `brev_in` with no step and no state (R101). -/
def brevOut (brevIn : Byte) : Byte := brev8 brevIn

end Sys2Proof.Machine
end

