-- ==== Sys2Proof/Machine/Params.lean ====
section
/-! DEFINITION. The literals of the spec, each named once: R7's parameters, the OP field of R72 and
the six frame opcodes of R90. The spec calls the source's literals unaudited (I8, N9): UNVERIFIED,
unsafe (log 17). -/

namespace Sys2Proof.Machine

/-- `SYNC_BYTE`, sent first in every exchange (R7, R86). -/
def syncByte : Byte := 0x99#8

/-- `FILL_BYTE`, sent in every filler transfer (R7, R87). -/
def fillByte : Byte := 0x00#8

/-- `DELIM`, the packet delimiter (R7, R89). -/
def delim : Byte := 0x00#8

/-- `HDR_LEN`, header bytes stripped from a packet (R7, R153). -/
def hdrLen : Nat := 2

/-- `TX_MAX`, most payload bytes of a frame (R7, R28). -/
def txMax : Nat := 254

/-- `PX_MAX`, capacity of the packet extractor's candidate (R7, R31). -/
def pxMax : Nat := 255

/-- `RX_CAP`, capacity of the ReceiveBuffer (R7, R27). -/
def rxCap : Nat := 255

/-- OP of BREV (R72). -/
def opBrev : Nibble := 0x1#4
/-- OP of TXCLR (R72). -/
def opTxclr : Nibble := 0x2#4
/-- OP of TXPUSH (R72). -/
def opTxpush : Nibble := 0x3#4
/-- OP of SEND (R72). -/
def opSend : Nibble := 0x4#4
/-- OP of READ (R72). -/
def opRead : Nibble := 0x5#4
/-- OP of PXSTART (R72). -/
def opPxstart : Nibble := 0x6#4
/-- OP of PXBYTE (R72). -/
def opPxbyte : Nibble := 0x7#4
/-- OP of PXEND (R72). -/
def opPxend : Nibble := 0x8#4

/-- Frame opcode GET_STATE (R90, R172). -/
def opcodeGetState : Byte := 0x01#8
/-- Frame opcode GET_VERSION (R90, R173). -/
def opcodeGetVersion : Byte := 0x02#8
/-- Frame opcode GET_PACKET (R90, R174). -/
def opcodeGetPacket : Byte := 0x03#8
/-- Frame opcode SEND_PACKET (R90, R175). -/
def opcodeSendPacket : Byte := 0x04#8
/-- Frame opcode RESET (R90, R171). -/
def opcodeReset : Byte := 0x07#8
/-- Frame opcode SET_LED (R90, R176). -/
def opcodeSetLed : Byte := 0x08#8

/-- The closed set of command opcodes (R90, R170). -/
def commandOpcodes : List Byte :=
  [opcodeGetState, opcodeGetVersion, opcodeGetPacket, opcodeSendPacket, opcodeReset, opcodeSetLed]

/-- SEND accepts exactly the six command opcodes (R123, R170). -/
def isCommandOpcode (c : Byte) : Bool := commandOpcodes.contains c

end Sys2Proof.Machine
end

