-- ==== Sys2Proof/Syntax.lean ====
section
/-! DEFINITION. The instructions: one constructor per row of spec/opcode_table.json. -/

namespace Sys2Proof

/-- The eight operations of the command port (R2, R72) and the six frame opcodes that SEND carries
(R90, R170). No operation has another operand than the 8-bit ARG (R71). -/
inductive Instr where
  /-- BREV: reverse the bits of a byte (R102). -/
  | brev (a : Byte)
  /-- TXCLR: clear the transmit payload (R120). -/
  | txclr
  /-- TXPUSH: append one payload byte (R121). -/
  | txpush (p : Byte)
  /-- SEND: start the exchange that carries a command opcode and the payload (R123). -/
  | send (c : Byte)
  /-- READ: start the exchange that fetches the response (R124). -/
  | read
  /-- PXSTART: begin a packet stream (R150). -/
  | pxstart
  /-- PXBYTE: feed one stream byte (R152). -/
  | pxbyte (b : Byte)
  /-- PXEND: end the packet stream (R154). -/
  | pxend
  /-- RESET: the frame command 0x07 (R171). -/
  | reset
  /-- GET_STATE: the frame command 0x01 (R172). -/
  | getState
  /-- GET_VERSION: the frame command 0x02 (R173). -/
  | getVersion
  /-- GET_PACKET: the frame command 0x03 (R174). -/
  | getPacket
  /-- SEND_PACKET: the frame command 0x04 (R175). -/
  | sendPacket
  /-- SET_LED: the frame command 0x08 (R176). -/
  | setLed
  deriving DecidableEq, Repr

end Sys2Proof
end

