-- ==== Sys2Proof/WellFormed.lean ====
section
/-! DEFINITION. What a well-formed term is: of command words (R73), of payloads (R28, R92) and of
instructions (R71). -/

namespace Sys2Proof

open Machine (cwOp cwRsv cwArg)

/-- OP names an operation: 0x0 and 0x9 to 0xF are reserved (R72). -/
def opAssigned (cw : Word) : Bool := decide (1 ≤ (cwOp cw).toNat) && decide ((cwOp cw).toNat ≤ 8)

/-- RSV is 0 (R70, R73). -/
def rsvZero (cw : Word) : Bool := cwRsv cw == 0#4

/-- ARG is 0 wherever the operation takes no operand: TXCLR, READ, PXSTART, PXEND (R71, R73). -/
def argUsed (cw : Word) : Bool :=
  !([Machine.opTxclr, Machine.opRead, Machine.opPxstart, Machine.opPxend].contains (cwOp cw))
    || cwArg cw == 0#8

/-- A command word is legal when none of R73's three conditions makes it illegal. -/
def legalWord (cw : Word) : Bool := opAssigned cw && rsvZero cw && argUsed cw

/-- A payload fits a frame: its length field `len + 1` is exact in 8 bits (R28, R85, R92). -/
def payloadFits (payload : List Byte) : Bool := decide (payload.length ≤ Machine.txMax)

/-- Every operand is 8 bits by construction (R71), so every instruction is well-formed. An opcode
outside the six is no ill-formed SEND: it decodes as SEND and is answered with ERR_BADCMD (R74). -/
def Instr.wellFormed : Instr → Bool
  | .brev _ => true
  | .txclr => true
  | .txpush _ => true
  | .send _ => true
  | .read => true
  | .pxstart => true
  | .pxbyte _ => true
  | .pxend => true
  | .reset => true
  | .getState => true
  | .getVersion => true
  | .getPacket => true
  | .sendPacket => true
  | .setLed => true

end Sys2Proof
end

