-- ==== Sys2Proof/Decode.lean ====
section
/-! DEFINITION. Decoding (R74), total and rejecting by name, and the encoder (R70, R72, R90, R91). -/

namespace Sys2Proof

open Machine (cwOp cwRsv cwArg makeWord)

/-- What a code is read as: a 16-bit command word (R70), or the 8-bit opcode inside a frame (R90). -/
inductive Code where
  | word (cw : Word)
  | opcode (c : Byte)
  deriving DecidableEq, Repr

/-- Why a code is no instruction. A rejected command word still executes, as R202. -/
inductive DecodeError where
  /-- RSV ≠ 0 (R73). -/
  | reservedField (rsv : Nibble)
  /-- OP is 0x0 or 0x9 to 0xF (R73). -/
  | reservedOp (op : Nibble)
  /-- ARG ≠ 0 on an operation without an operand (R73). -/
  | unusedArg (op : Nibble) (arg : Byte)
  /-- A byte that is none of the six command opcodes (R90). -/
  | notAnOpcode (c : Byte)
  deriving DecidableEq, Repr

/-- An operation without an operand: ARG must be 0 (R73). -/
def decodeBare (op : Nibble) (arg : Byte) (i : Instr) : Except DecodeError Instr :=
  if arg = 0#8 then .ok i else .error (.unusedArg op arg)

/-- The OP field selects the operation (R72). -/
def decodeOp (op : Nibble) (arg : Byte) : Except DecodeError Instr :=
  if op = Machine.opBrev then .ok (.brev arg)
  else if op = Machine.opTxclr then decodeBare op arg .txclr
  else if op = Machine.opTxpush then .ok (.txpush arg)
  else if op = Machine.opSend then .ok (.send arg)
  else if op = Machine.opRead then decodeBare op arg .read
  else if op = Machine.opPxstart then decodeBare op arg .pxstart
  else if op = Machine.opPxbyte then .ok (.pxbyte arg)
  else if op = Machine.opPxend then decodeBare op arg .pxend
  else .error (.reservedOp op)

/-- Decoding a command word, in R74's order: RSV first, then OP, then ARG. Which error is named when
two apply is a DESIGN CHOICE, safe: nothing shows it (log 21). -/
def decodeWord (cw : Word) : Except DecodeError Instr :=
  if cwRsv cw ≠ 0#4 then .error (.reservedField (cwRsv cw)) else decodeOp (cwOp cw) (cwArg cw)

/-- Decoding frame byte 1: one of the six command opcodes (R90). -/
def decodeOpcode (c : Byte) : Except DecodeError Instr :=
  if c = Machine.opcodeGetState then .ok .getState
  else if c = Machine.opcodeGetVersion then .ok .getVersion
  else if c = Machine.opcodeGetPacket then .ok .getPacket
  else if c = Machine.opcodeSendPacket then .ok .sendPacket
  else if c = Machine.opcodeReset then .ok .reset
  else if c = Machine.opcodeSetLed then .ok .setLed
  else .error (.notAnOpcode c)

/-- Decoding either kind of code. -/
def decode : Code → Except DecodeError Instr
  | .word cw => decodeWord cw
  | .opcode c => decodeOpcode c

/-- The code of an instruction (R70, R72, R90). -/
def encode : Instr → Code
  | .brev a => .word (makeWord Machine.opBrev a)
  | .txclr => .word (makeWord Machine.opTxclr 0#8)
  | .txpush p => .word (makeWord Machine.opTxpush p)
  | .send c => .word (makeWord Machine.opSend c)
  | .read => .word (makeWord Machine.opRead 0#8)
  | .pxstart => .word (makeWord Machine.opPxstart 0#8)
  | .pxbyte b => .word (makeWord Machine.opPxbyte b)
  | .pxend => .word (makeWord Machine.opPxend 0#8)
  | .reset => .opcode Machine.opcodeReset
  | .getState => .opcode Machine.opcodeGetState
  | .getVersion => .opcode Machine.opcodeGetVersion
  | .getPacket => .opcode Machine.opcodeGetPacket
  | .sendPacket => .opcode Machine.opcodeSendPacket
  | .setLed => .opcode Machine.opcodeSetLed

/-- The command word that gives a code to the core: a word is itself, and a frame opcode is "carried
as ARG of SEND" (opcode_table.json, R171 to R176; log 6). -/
def Code.carrier : Code → Word
  | .word cw => cw
  | .opcode c => makeWord Machine.opSend c

/-- The code that a table row's bits stand for: 8 bits are a frame opcode, 16 a command word. -/
def codeOfBits (nbits w : Nat) : Option Code :=
  if nbits = 8 ∧ w < 2 ^ 8 then some (.opcode (BitVec.ofNat 8 w))
  else if nbits = 16 ∧ w < 2 ^ 16 then some (.word (BitVec.ofNat 16 w))
  else none

/-- The instruction the decoder reads from a table row's bits. -/
def decodeTableWord (nbits w : Nat) : Option Instr :=
  match codeOfBits nbits w with
  | some code => (decode code).toOption
  | none => none

end Sys2Proof
end

