-- ==== Sys2Proof/Config.lean ====
section
/-! DEFINITION. The one parameter the spec leaves open, `LEN_SRC` (R7, R35, decision D5). -/

namespace Sys2Proof

/-- Which received byte is latched as the response length (R7, R126, conflict C1). -/
inductive LenSrc where
  /-- The first byte received after the sync reply: the default. -/
  | nextAfterSync
  /-- The reply to the sync byte itself: the named alternative. -/
  | syncReply
  deriving DecidableEq, Repr

/-- The default reading of conflict C1 (R7, R126). -/
def Config.defaultLenSrc : LenSrc := .nextAfterSync

end Sys2Proof
end

