-- ==== Sys2Proof/Machine/State.lean ====
section
/-! DEFINITION. The machine's state, all of it (R20 to R42), its reset value (R39), and the reasons a
step can stop. -/

namespace Sys2Proof.Machine

/-- `PHASE`, where RXF stands in an exchange (R23). -/
inductive Phase where
  /-- No exchange is in progress. -/
  | idle
  /-- The next transfer sends the sync byte. -/
  | sync
  /-- The next transfer sends frame byte TXI. -/
  | frame
  /-- The next transfer sends a filler byte. -/
  | fill
  deriving DecidableEq, Repr

/-- `KIND`, what started the exchange (R24). -/
inductive Kind where
  /-- SEND. -/
  | cmd
  /-- READ. -/
  | read
  deriving DecidableEq, Repr

/-- The status of a DONE event and of LAST_ERR (R201). The reserved codes 6 to 15 are never produced
and are no constructors (I10, log 18). -/
inductive Status where
  | ok
  | errIllegal
  | errBadcmd
  | errTxfull
  | errTransport
  | errPxovf
  deriving DecidableEq, Repr

/-- A response event (R80). -/
inductive Event where
  /-- The answer to one accepted command word: its OP, a status, data bytes. -/
  | done (op : Nibble) (st : Status) (data : List Byte)
  /-- One extracted packet. -/
  | pkt (data : List Byte)
  deriving DecidableEq, Repr

/-- The transport's answer to one transfer (R3, R9): the received wire byte, or a failure. -/
inductive Reply where
  | ok (rx : Byte)
  | fail
  deriving DecidableEq, Repr

/-- One bus transfer: the wire byte handed to the transport and its answer (R9, R56). -/
structure Transfer where
  tx : Byte
  reply : Reply
  deriving DecidableEq, Repr

/-- Why the machine stops. Neither reason stops an instruction: both belong to a transfer. -/
inductive Fault where
  /-- Raised by a transfer that the transport never answers: the core stays BUSY for ever, with no
  timeout (R130), a state with no successor other than reset (I6 "stuck"). Unsafe only for a claim
  that a run ends, since the list of answers is finite (log 2). -/
  | transportSilent
  /-- Raised by a FRAME transfer whose TXI lies beyond the frame, a read of TXBUF at or above TXCNT,
  which no rule makes (R41, I3). No reachable state raises it. Safe (log 8). -/
  | frameIndexBeyondPayload
  deriving DecidableEq, Repr

/-- Why an instruction has no meaning. -/
inductive Refusal where
  /-- Raised by an arm of `exec` whose instruction has no meaning yet. No arm raises it. Safe. -/
  | notModelled (mnemonic : String)
  deriving DecidableEq, Repr

/-- The core's registers and buffers (R23 to R33), its configuration (R35), its output histories and
the inputs still to come. The buffers hold their valid elements only, so that each count register is
the length of its buffer (R27, R28, R31, R41; log 7). -/
structure State where
  /-- PHASE (R23). -/
  phase : Phase
  /-- KIND (R24). -/
  kind : Kind
  /-- AWAIT (R25). -/
  awaiting : Bool
  /-- REM (R26). -/
  rem : Byte
  /-- RXBUF up to RXCNT (R27). -/
  rxbuf : List Byte
  /-- TXBUF up to TXCNT (R28). -/
  txbuf : List Byte
  /-- TXOP (R29). -/
  txop : Byte
  /-- TXI (R30). -/
  txi : Byte
  /-- CAND up to CCNT (R31). -/
  cand : List Byte
  /-- OVF (R32). -/
  ovf : Bool
  /-- LAST_ERR (R33). -/
  lastErr : Status
  /-- LEN_SRC, fixed for the machine: no step writes it (R35, log 9). -/
  lenSrc : LenSrc
  /-- The response events emitted, oldest first (R39, R80, R82). -/
  rsp : List Event
  /-- The bus transfers made, oldest first (R56; the model's own history, log 11). -/
  bus : List Transfer
  /-- Input: the level of `rst` at each coming step, 0 once the list ends (R20, log 3). -/
  rstIn : List Bool
  /-- Input: the command words the caller offers, in order (R20, R57, log 1). -/
  cmdIn : List Word
  /-- Input: the transport's answers to the coming transfers, in order (R3, log 2). -/
  xferIn : List Reply
  deriving DecidableEq, Repr

/-- The reset state of a core elaborated with a given LEN_SRC (R39), no input placed (log 15). -/
def State.resetWith (src : LenSrc) : State where
  phase := .idle
  kind := .cmd
  awaiting := false
  rem := 0#8
  rxbuf := []
  txbuf := []
  txop := 0x00#8
  txi := 0#8
  cand := []
  ovf := false
  lastErr := .ok
  lenSrc := src
  rsp := []
  bus := []
  rstIn := []
  cmdIn := []
  xferIn := []

/-- The machine right after reset (R39, R230), with the default LEN_SRC (R7). -/
def State.reset : State := .resetWith Config.defaultLenSrc

end Sys2Proof.Machine
end

