-- ==== Sys2Proof/Machine/Flags.lean ====
section
/-! DEFINITION. The flags and the read-only status view: BUSY (R34), the count registers (R27, R28,
R31), the register encodings (R23, R24, R35, R201) and the status words STAT0 and STAT1 (R36, R37). -/

namespace Sys2Proof.Machine

/-- `BUSY = (PHASE != IDLE)` (R34). -/
def State.busy (s : State) : Bool := s.phase != .idle

/-- `cmd_ready = NOT BUSY` (R20, R34). -/
def State.cmdReady (s : State) : Bool := !s.busy

/-- RXCNT (R27). -/
def State.rxcnt (s : State) : Byte := BitVec.ofNat 8 s.rxbuf.length

/-- TXCNT (R28). -/
def State.txcnt (s : State) : Byte := BitVec.ofNat 8 s.txbuf.length

/-- CCNT (R31). -/
def State.ccnt (s : State) : Byte := BitVec.ofNat 8 s.cand.length

/-- The encoding of PHASE (R23). -/
def phaseCode : Phase → BitVec 2
  | .idle => 0#2
  | .sync => 1#2
  | .frame => 2#2
  | .fill => 3#2

/-- The encoding of KIND (R24). -/
def kindCode : Kind → BitVec 1
  | .cmd => 0#1
  | .read => 1#1

/-- LEN_SRC as STAT0 shows it (R35). -/
def lenSrcCode : LenSrc → BitVec 1
  | .nextAfterSync => 0#1
  | .syncReply => 1#1

/-- The status codes (R201). -/
def statusCode : Status → Nibble
  | .ok => 0#4
  | .errIllegal => 1#4
  | .errBadcmd => 2#4
  | .errTxfull => 3#4
  | .errTransport => 4#4
  | .errPxovf => 5#4

/-- The status word STAT0, most significant field first, reserved bits 0 (R36, I11). -/
def State.stat0 (s : State) : BitVec 32 :=
  s.rxcnt ++ (s.rem ++ (0#4 ++ (statusCode s.lastErr ++ (0#1 ++ (lenSrcCode s.lenSrc ++
    (BitVec.ofBool s.ovf ++ (BitVec.ofBool s.awaiting ++ (kindCode s.kind ++
      (phaseCode s.phase ++ BitVec.ofBool s.busy)))))))))

/-- The status word STAT1, most significant field first (R37). -/
def State.stat1 (s : State) : BitVec 32 :=
  s.txop ++ (s.ccnt ++ (s.txi ++ s.txcnt))

/-- `stat_word` for a value of `stat_sel` (R20, R36, R37). A view: reading it changes nothing (R38). -/
def State.statWord (s : State) (statSel : Bool) : BitVec 32 :=
  if statSel then s.stat1 else s.stat0

end Sys2Proof.Machine
end

