-- ==== Sys2Proof/Machine/Ops.lean ====
section
/-! DEFINITION. The named operations over registers, buffers and ports that the meanings and the
transfers share: response events, errors, reset, the buffers, the bus. -/

namespace Sys2Proof.Machine

/-! ### Response events and errors -/

/-- `emit DONE(op, st, data)`: appended to the response port, and LAST_ERR takes `st` (R9, R33, R80). -/
def emitDone (op : Nibble) (st : Status) (data : List Byte) (s : State) : State :=
  { s with rsp := s.rsp ++ [.done op st data], lastErr := st }

/-- `emit PKT(data)` (R9, R80). -/
def emitPkt (data : List Byte) (s : State) : State :=
  { s with rsp := s.rsp ++ [.pkt data] }

/-- `raise E`: the core's whole error mechanism. A DONE with a nonzero status and no data, LAST_ERR
set, nothing else: no trap, no saved state, no handler and no return (R9, R200, R207). -/
def raiseStatus (op : Nibble) (st : Status) (s : State) : State := emitDone op st [] s

/-! ### Reset -/

/-- Reset (R230, R231): every register and flag takes R39's value in one step. An exchange in progress
ends with no DONE and no transfer, no event already emitted is taken back, and the words offered and
answers still to come stay as they are (DEDUCED, log 12). -/
def takeReset (s : State) : State :=
  { State.resetWith s.lenSrc with
    rsp := s.rsp, bus := s.bus, rstIn := s.rstIn, cmdIn := s.cmdIn, xferIn := s.xferIn }

/-! ### The command port -/

/-- The word offered first has been accepted; `rest` is what is offered after it (R57). -/
def takeOffer (rest : List Word) (s : State) : State := { s with cmdIn := rest }

/-! ### The transmit payload -/

/-- `TXCNT <- 0` (R120, R132, R133). -/
def clearPayload (s : State) : State := { s with txbuf := [] }

/-- `TXBUF[TXCNT] <- p; TXCNT <- TXCNT + 1` (R121). -/
def pushPayload (p : Byte) (s : State) : State := { s with txbuf := s.txbuf ++ [p] }

/-- The frame of the SEND in progress, in host order: `[TXCNT + 1, TXOP] ++ TXBUF` (R85). -/
def State.frameBytes (s : State) : List Byte :=
  BitVec.ofNat 8 (s.txbuf.length + 1) :: s.txop :: s.txbuf

/-- `frame_byte(i)`, defined for `0 ≤ i ≤ TXCNT + 1` (R125). -/
def frameByte (s : State) : Nat → Option Byte
  | 0 => some (BitVec.ofNat 8 (s.txbuf.length + 1))
  | 1 => some s.txop
  | i + 2 => s.txbuf[i]?

/-! ### The packet extractor's candidate -/

/-- `CCNT <- 0; OVF <- 0` (R150, R152, R154). -/
def clearCandidate (s : State) : State := { s with cand := [], ovf := false }

/-- `CAND[CCNT] <- b; CCNT <- CCNT + 1` (R152). -/
def pushCandidate (b : Byte) (s : State) : State := { s with cand := s.cand ++ [b] }

/-! ### The exchange -/

/-- `start_exchange(k)` (R122): the ReceiveBuffer empty, false, 0, and RXF at the sync transfer. It emits
nothing and does not write LAST_ERR. -/
def startExchange (k : Kind) (s : State) : State :=
  { s with
    kind := k, awaiting := false, rem := 0#8, rxbuf := [], txi := 0#8, phase := .sync }

/-- Acceptance of a SEND whose opcode is one of the six: `TXOP <- c; start_exchange(CMD)` (R123). -/
def startSend (c : Byte) (s : State) : State := startExchange .cmd { s with txop := c }

/-- `rx_accept(r)` (R128): latch the length, or append, or discard. -/
def rxAccept (r : Byte) (s : State) : State :=
  if s.awaiting then { s with rem := r, awaiting := false }
  else if s.rem ≠ 0#8 then { s with rxbuf := s.rxbuf ++ [r], rem := s.rem - 1#8 }
  else s

/-- sendCommand returns: the payload is consumed and the ReceiveBuffer stays (R132, D9, D10). -/
def completeSend (s : State) : State :=
  emitDone opSend .ok [] { clearPayload s with phase := .idle }

/-- readComms returns the accumulated bytes and empties the ReceiveBuffer (R132). -/
def completeRead (s : State) : State :=
  emitDone opRead .ok s.rxbuf { s with rxbuf := [], rem := 0#8, awaiting := false, phase := .idle }

/-- `check_complete()` (R132). -/
def checkComplete (s : State) : State :=
  if s.phase = .fill ∧ s.awaiting = false ∧ s.rem = 0#8 then
    match s.kind with
    | .cmd => completeSend s
    | .read => completeRead s
  else s

/-- `abort()` after a failed transfer (R133): AWAIT, REM, RXBUF, RXCNT, TXI and TXOP keep their values. -/
def abortExchange (s : State) : State :=
  match s.kind with
  | .cmd => raiseStatus opSend .errTransport { clearPayload s with phase := .idle }
  | .read => raiseStatus opRead .errTransport { s with phase := .idle }

/-- The transfer of wire byte `t` answered by the next of the transport's answers, in the history. -/
def logTransfer (t : Byte) (reply : Reply) (rest : List Reply) (s : State) : State :=
  { s with bus := s.bus ++ [⟨t, reply⟩], xferIn := rest }

/-- One transfer step that sends host-order byte `b` (R9, R111): exactly one `XFER(brev8(b))`. On `ok(w)`
the step goes on with `r = brev8(w)` (R50); on `fail` it ends as `abort()`, before any completion check
(R203). A transport that never answers leaves the core stuck (R130, I6; log 2). -/
def transfer (b : Byte) (onByte : Byte → State → State) (s : State) :
    Host.Outcome State Fault Refusal :=
  match s.xferIn with
  | [] => .fault .transportSilent
  | .fail :: rest => .next (abortExchange (logTransfer (brev8 b) .fail rest s))
  | .ok w :: rest => .next (onByte (brev8 w) (logTransfer (brev8 b) (.ok w) rest s))

end Sys2Proof.Machine
end

