-- ==== Sys2Proof/Machine/Brev.lean ====
section
/-! DEFINITION. BREV8 on the command port. -/

namespace Sys2Proof.Machine

/-- BREV (R102): `DONE(0x1, OK, [brev8(a)])`; writes LAST_ERR only. -/
def execBrev (a : Byte) (s : State) : Host.Outcome State Fault Refusal :=
  .next (emitDone opBrev .ok [brev8 a] s)

end Sys2Proof.Machine
end

