-- ==== Sys2Proof/Machine/FrameCommands.lean ====
section
/-! DEFINITION. The six frame commands (R170 to R176). "To the core, every command is the same
operation, SEND with a different ARG": each is accepted as that SEND, with whatever payload TXBUF holds
(R170, D8; log 6). What it makes the firmware do is outside the block. -/

namespace Sys2Proof.Machine

/-- RESET, opcode 0x07 (R171). -/
def execReset (s : State) : Host.Outcome State Fault Refusal := .next (startSend opcodeReset s)

/-- GET_STATE, opcode 0x01 (R172). -/
def execGetState (s : State) : Host.Outcome State Fault Refusal :=
  .next (startSend opcodeGetState s)

/-- GET_VERSION, opcode 0x02 (R173). -/
def execGetVersion (s : State) : Host.Outcome State Fault Refusal :=
  .next (startSend opcodeGetVersion s)

/-- GET_PACKET, opcode 0x03 (R174). -/
def execGetPacket (s : State) : Host.Outcome State Fault Refusal :=
  .next (startSend opcodeGetPacket s)

/-- SEND_PACKET, opcode 0x04 (R175). -/
def execSendPacket (s : State) : Host.Outcome State Fault Refusal :=
  .next (startSend opcodeSendPacket s)

/-- SET_LED, opcode 0x08 (R176). -/
def execSetLed (s : State) : Host.Outcome State Fault Refusal := .next (startSend opcodeSetLed s)

end Sys2Proof.Machine
end

