-- ==== Sys2Proof/Machine/Px.lean ====
section
/-! DEFINITION. PX, the packet extractor: PXSTART, PXBYTE, PXEND, and the function over a whole buffer
that gives them their meaning (R151). -/

namespace Sys2Proof.Machine

/-- PXSTART (R150): any candidate in progress is discarded. -/
def execPxstart (s : State) : Host.Outcome State Fault Refusal :=
  .next (emitDone opPxstart .ok [] (clearCandidate s))

/-- The packet a delimiter emits, if any: the candidate without its header, PKT before DONE (R152, R153). -/
def emitCandidate (s : State) : State :=
  if s.ovf = false ∧ hdrLen < s.cand.length then emitPkt (s.cand.drop hdrLen) s else s

/-- PXBYTE (R152): the delimiter ends the candidate; any other byte is appended, or, with 255 held, lost. -/
def execPxbyte (b : Byte) (s : State) : Host.Outcome State Fault Refusal :=
  if b = delim then .next (emitDone opPxbyte .ok [] (clearCandidate (emitCandidate s)))
  else if s.cand.length < pxMax then .next (emitDone opPxbyte .ok [] (pushCandidate b s))
  else .next (raiseStatus opPxbyte .errPxovf { s with ovf := true })

/-- PXEND (R154): trailing bytes with no terminating delimiter are dropped. -/
def execPxend (s : State) : Host.Outcome State Fault Refusal :=
  .next (emitDone opPxend .ok [] (clearCandidate s))

/-- The packet of one terminated candidate: emitted only if longer than the header (R151). -/
def packetOf (cand : List Byte) : List (List Byte) :=
  if hdrLen < cand.length then [cand.drop hdrLen] else []

/-- `extract(B)` from a candidate in progress on (R151). -/
def extractFrom (cand : List Byte) : List Byte → List (List Byte)
  | [] => []
  | b :: rest =>
    if b = delim then packetOf cand ++ extractFrom [] rest else extractFrom (cand ++ [b]) rest

/-- `extract(B)`, the normative meaning of extraction over a whole buffer (R151). -/
def extract (buffer : List Byte) : List (List Byte) := extractFrom [] buffer

end Sys2Proof.Machine
end

