-- ==== Sys2Proof/Machine/Rxf.lean ====
section
/-! DEFINITION. RXF on the command port: TXCLR, TXPUSH, SEND, READ. A meaning is what ACCEPTING the word
does: the handshake that accepts a word only while BUSY = 0 stands in Cycle.lean (R233; log 13). -/

namespace Sys2Proof.Machine

/-- TXCLR (R120). -/
def execTxclr (s : State) : Host.Outcome State Fault Refusal :=
  .next (emitDone opTxclr .ok [] (clearPayload s))

/-- TXPUSH (R121): ERR_TXFULL with 254 bytes held, and then the payload is unchanged. -/
def execTxpush (p : Byte) (s : State) : Host.Outcome State Fault Refusal :=
  if s.txbuf.length < txMax then .next (emitDone opTxpush .ok [] (pushPayload p s))
  else .next (raiseStatus opTxpush .errTxfull s)

/-- SEND (R123): ERR_BADCMD for an opcode outside the six, and then no exchange; else the exchange
starts, and its DONE comes when it completes or aborts (R81). -/
def execSend (c : Byte) (s : State) : Host.Outcome State Fault Refusal :=
  if isCommandOpcode c then .next (startSend c s)
  else .next (raiseStatus opSend .errBadcmd s)

/-- READ (R124): the exchange starts; its DONE comes when it completes or aborts (R81). -/
def execRead (s : State) : Host.Outcome State Fault Refusal :=
  .next (startExchange .read s)

end Sys2Proof.Machine
end

