-- ==== Sys2Proof/Machine/Dispatch.lean ====
section
/-! DEFINITION. The dispatch: one arm per constructor of Instr, one direct call of its meaning. -/

namespace Sys2Proof.Machine

def exec (i : Instr) (s : State) : Host.Outcome State Fault Refusal :=
  match i with
  | .brev a => Sys2Proof.Machine.execBrev a s
  | .txclr => Sys2Proof.Machine.execTxclr s
  | .txpush p => Sys2Proof.Machine.execTxpush p s
  | .send c => Sys2Proof.Machine.execSend c s
  | .read => Sys2Proof.Machine.execRead s
  | .pxstart => Sys2Proof.Machine.execPxstart s
  | .pxbyte b => Sys2Proof.Machine.execPxbyte b s
  | .pxend => Sys2Proof.Machine.execPxend s
  | .reset => Sys2Proof.Machine.execReset s
  | .getState => Sys2Proof.Machine.execGetState s
  | .getVersion => Sys2Proof.Machine.execGetVersion s
  | .getPacket => Sys2Proof.Machine.execGetPacket s
  | .sendPacket => Sys2Proof.Machine.execSendPacket s
  | .setLed => Sys2Proof.Machine.execSetLed s

end Sys2Proof.Machine
end

