-- ==== Sys2Proof/Machine/Exchange.lean ====
section
/-! DEFINITION. RXF's transfer steps while BUSY = 1: SYNC (R126), FRAME (R127), FILL (R129). -/

namespace Sys2Proof.Machine

/-- What the sync reply `r` does, before the completion check (R126): under NEXT_AFTER_SYNC it is
discarded and AWAIT is set, under SYNC_REPLY it is the length. -/
def syncAccept (r : Byte) (s : State) : State :=
  match s.lenSrc with
  | .nextAfterSync => { s with awaiting := true }
  | .syncReply => { s with rem := r, awaiting := false }

/-- The phase after the sync transfer: `(KIND = CMD) ? FRAME : FILL` (R126, R131). -/
def phaseAfterSync : Kind → Phase
  | .cmd => .frame
  | .read => .fill

/-- The rest of the SYNC transfer once `r` has been received (R126). -/
def syncReceive (r : Byte) (s : State) : State :=
  checkComplete { syncAccept r s with phase := phaseAfterSync s.kind }

/-- The SYNC transfer (R126). -/
def syncTransfer (s : State) : Host.Outcome State Fault Refusal :=
  transfer syncByte syncReceive s

/-- The rest of the FRAME transfer once `r` has been received (R127). -/
def frameReceive (r : Byte) (s : State) : State :=
  if s.txi.toNat = s.txbuf.length + 1 then checkComplete { rxAccept r s with phase := .fill }
  else { rxAccept r s with txi := s.txi + 1#8 }

/-- The FRAME transfer (R127). A TXI beyond the frame faults (log 8); no reachable state has one. -/
def frameTransfer (s : State) : Host.Outcome State Fault Refusal :=
  match frameByte s s.txi.toNat with
  | none => .fault .frameIndexBeyondPayload
  | some b => transfer b frameReceive s

/-- The rest of the FILL transfer once `r` has been received (R129). -/
def fillReceive (r : Byte) (s : State) : State := checkComplete (rxAccept r s)

/-- The FILL transfer (R129), the READ's length fetch among them (R131). -/
def fillTransfer (s : State) : Host.Outcome State Fault Refusal :=
  transfer fillByte fillReceive s

/-- `xfer_tx` while `xfer_req` is 1: the wire byte the next transfer sends, none while idle (R20, R111). -/
def State.wireOut (s : State) : Option Byte :=
  match s.phase with
  | .idle => none
  | .sync => some (brev8 syncByte)
  | .frame => (frameByte s s.txi.toNat).map brev8
  | .fill => some (brev8 fillByte)

end Sys2Proof.Machine
end

