-- ==== Sys2Proof/Machine/Cycle.lean ====
section
/-! DEFINITION. One step of the core, in the parts that Step.lean joins: reset, the command port's
handshake, the transfer the phase selects, and waiting. -/

namespace Sys2Proof.Machine

/-- An illegal command word (R202): one DONE carrying the word's own OP, nothing else changes. -/
def execIllegal (cw : Word) (s : State) : Host.Outcome State Fault Refusal :=
  .next (raiseStatus (cwOp cw) .errIllegal s)

/-- An accepted command word: decoded (R74), then executed, or illegal (R73, R203). -/
def acceptWord (cw : Word) (s : State) : Host.Outcome State Fault Refusal :=
  match decodeWord cw with
  | .ok i => exec i s
  | .error _ => execIllegal cw s

/-- The command port while BUSY = 0 (R57, R233): the next word offered is accepted. With none offered the
core waits and nothing changes (DESIGN CHOICE, safe: log 4). -/
def acceptNext (s : State) : Host.Outcome State Fault Refusal :=
  match s.cmdIn with
  | [] => .next s
  | cw :: rest => acceptWord cw (takeOffer rest s)

/-- The one step enabled while `rst` is 0: a transfer while BUSY, selected by PHASE (R111), and else the
command port. A word offered while BUSY is held (R233). -/
def coreStep (s : State) : Host.Outcome State Fault Refusal :=
  match s.phase with
  | .idle => acceptNext s
  | .sync => syncTransfer s
  | .frame => frameTransfer s
  | .fill => fillTransfer s

/-- An instant in which `rst` is seen to be 0 and more of its levels are to come: a silent transport then
leaves the core waiting, BUSY and unchanged, since a reset may still end the wait (R130, I6; log 3). -/
def lowInstant (s : State) : Host.Outcome State Fault Refusal :=
  match coreStep s with
  | .fault .transportSilent => .next s
  | o => o

/-- One step: reset takes precedence over everything (R203, R231), then `coreStep`. -/
def cycle (s : State) : Host.Outcome State Fault Refusal :=
  match s.rstIn with
  | [] => coreStep s
  | true :: rest => .next (takeReset { s with rstIn := rest })
  | false :: rest => lowInstant { s with rstIn := rest }

/-- The next level of `rst` made 0, if it was 1. -/
def lowReset : List Bool → List Bool
  | [] => []
  | _ :: rest => false :: rest

/-- The word offered first to an idle core with `rst` at 0, so that the next step accepts it (log 5). -/
def offerWord (cw : Word) (s : State) : State :=
  { s with phase := .idle, rstIn := lowReset s.rstIn, cmdIn := cw :: s.cmdIn }

/-- A table row's bits offered: a command word as it is, a frame opcode as ARG of SEND (log 5, log 6). -/
def offerBits (nbits w : Nat) (s : State) : State :=
  match codeOfBits nbits w with
  | some code => offerWord code.carrier s
  | none => s

end Sys2Proof.Machine
end

