-- ==== Sys2Proof/Machine/Step.lean ====
section
/-! DEFINITION. The step, and where it fetches: the head of the words offered on the command port. -/

namespace Sys2Proof.Machine

/-- One step of the machine: one accepted command word, one bus transfer, a reset, or a wait (R10). -/
def step (s : State) : Host.Outcome State Fault Refusal := cycle s

/-- The state whose next step accepts the instruction with these bits (log 5). -/
def State.withFetchWord (s : State) (nbits w : Nat) : State := offerBits nbits w s

end Sys2Proof.Machine
end

