-- ==== Sys2Proof/Machine/Asm.lean ====
section
/-! DEFINITION. The caller's side of the command port: the payload layouts of the six frame commands
(R171 to R176), the pseudo-instructions and their expansion (R92, R93), and the assembly text (R91).
Nothing here is a step: "the core never sees a pseudo-instruction". Points the spec leaves open about the
text are DESIGN CHOICES, safe (log 16). -/

namespace Sys2Proof.Machine

/-- A 32-bit unsigned integer as 4 bytes, least significant first (R51, R93). -/
def leBytes (t : BitVec 32) : List Byte :=
  [t.extractLsb' 0 8, t.extractLsb' 8 8, t.extractLsb' 16 8, t.extractLsb' 24 8]

/-- The payload of GET_PACKET (R174). -/
def getPacketPayload (channel : Byte) (timeoutMs : BitVec 32) : List Byte :=
  channel :: leBytes timeoutMs

/-- The payload of SEND_PACKET, ended by the packet delimiter (R175). -/
def sendPacketPayload (channel resendCount resendDelay : Byte) (data : List Byte) : List Byte :=
  channel :: resendCount :: resendDelay :: (data ++ [delim])

/-- The payload of SET_LED (R176). -/
def setLedPayload (index value : Byte) : List Byte := [index, value]

/-- The pseudo-instructions (R92, R93). -/
inductive Pseudo where
  /-- `FRAME op, b0, ...`. -/
  | frame (op : Byte) (payload : List Byte)
  /-- `EXTRACT b0, ...`. -/
  | extract (stream : List Byte)
  /-- `FW_RESET`. -/
  | fwReset
  /-- `GETSTATE`. -/
  | getState
  /-- `GETVERSION`. -/
  | getVersion
  /-- `SETLED i, v`. -/
  | setLed (index value : Byte)
  /-- `SENDPKT ch, rc, rd, d0, ...`. -/
  | sendPkt (channel resendCount resendDelay : Byte) (data : List Byte)
  /-- `GETPKTS ch, t`. The EXTRACT over the READ's data follows once that data is known (R93). -/
  | getPkts (channel : Byte) (timeoutMs : BitVec 32)
  deriving DecidableEq, Repr

/-- `TXCLR; TXPUSH b0; ...; SEND op`; the assembler refuses more than 254 bytes (R92). -/
def expandFrame (op : Byte) (payload : List Byte) : Option (List Word) :=
  if payloadFits payload then
    some (makeWord opTxclr 0#8 :: (payload.map (makeWord opTxpush) ++ [makeWord opSend op]))
  else none

/-- A frame followed by READ (R93). -/
def expandFrameRead (op : Byte) (payload : List Byte) : Option (List Word) :=
  (expandFrame op payload).map (· ++ [makeWord opRead 0#8])

/-- `PXSTART; PXBYTE b0; ...; PXEND` (R92). -/
def expandExtract (stream : List Byte) : List Word :=
  makeWord opPxstart 0#8 :: (stream.map (makeWord opPxbyte) ++ [makeWord opPxend 0#8])

/-- The command words a pseudo-instruction stands for, none where the assembler refuses it (R92, R93). -/
def Pseudo.expand : Pseudo → Option (List Word)
  | .frame op payload => expandFrame op payload
  | .extract stream => some (expandExtract stream)
  | .fwReset => expandFrame opcodeReset []
  | .getState => expandFrameRead opcodeGetState []
  | .getVersion => expandFrameRead opcodeGetVersion []
  | .setLed index value => expandFrame opcodeSetLed (setLedPayload index value)
  | .sendPkt channel resendCount resendDelay data =>
    expandFrame opcodeSendPacket (sendPacketPayload channel resendCount resendDelay data)
  | .getPkts channel timeoutMs =>
    expandFrameRead opcodeGetPacket (getPacketPayload channel timeoutMs)

/-! ### The text -/

/-- Why a line is refused. -/
inductive AsmError where
  /-- No such mnemonic, or not with this number of operands. -/
  | badStatement
  /-- An operand that is no byte (or, for GETPKTS, no 32-bit number). -/
  | badOperand
  /-- A frame of more than 254 payload bytes (R92). -/
  | payloadTooLong
  deriving DecidableEq, Repr

/-- What a line holds. -/
inductive Statement where
  /-- Nothing, or a comment only. -/
  | blank
  | instr (i : Instr)
  | pseudo (p : Pseudo)
  deriving DecidableEq, Repr

/-- The token in progress, ended. -/
def flushToken (cur : List Char) : List (List Char) := if cur.isEmpty then [] else [cur]

/-- The line cut at blanks and commas; a quoted character stays whole and `;` starts a comment (R91). -/
def tokensFrom (cur : List Char) : List Char → List (List Char)
  | [] => flushToken cur
  | '\'' :: c :: '\'' :: rest => tokensFrom (cur ++ ['\'', c, '\'']) rest
  | c :: rest =>
    if c = ';' then flushToken cur
    else if c = ' ' ∨ c = '\t' ∨ c = ',' then flushToken cur ++ tokensFrom [] rest
    else tokensFrom (cur ++ [c]) rest

/-- The value of a decimal or hexadecimal digit. -/
def digitValue (c : Char) : Option Nat :=
  if 48 ≤ c.toNat ∧ c.toNat ≤ 57 then some (c.toNat - 48)
  else if 65 ≤ c.toNat ∧ c.toNat ≤ 70 then some (c.toNat - 55)
  else if 97 ≤ c.toNat ∧ c.toNat ≤ 102 then some (c.toNat - 87)
  else none

/-- The value of a string of digits, continued from `acc`. -/
def digitsValue (base acc : Nat) : List Char → Option Nat
  | [] => some acc
  | c :: rest =>
    match digitValue c with
    | some d => if d < base then digitsValue base (acc * base + d) rest else none
    | none => none

/-- A number: decimal, `0x` hexadecimal, or a quoted ASCII character (R91). -/
def numberOf : List Char → Option Nat
  | [] => none
  | ['\'', c, '\''] => if c.toNat < 128 then some c.toNat else none
  | ['0', 'x'] => none
  | '0' :: 'x' :: digits => digitsValue 16 0 digits
  | digits => digitsValue 10 0 digits

/-- A byte operand: a number from 0 to 255 (R91). -/
def byteOf (tok : List Char) : Option Byte :=
  match numberOf tok with
  | some n => if n < 256 then some (BitVec.ofNat 8 n) else none
  | none => none

/-- The six names that stand for opcodes (R90, R91). -/
def opcodeNames : List (List Char × Byte) :=
  [("RESET".toList, opcodeReset), ("GET_STATE".toList, opcodeGetState),
   ("GET_VERSION".toList, opcodeGetVersion), ("GET_PACKET".toList, opcodeGetPacket),
   ("SEND_PACKET".toList, opcodeSendPacket), ("SET_LED".toList, opcodeSetLed)]

/-- The operand of SEND or FRAME: a byte, or one of the six names (R91). -/
def opcodeOf (tok : List Char) : Option Byte :=
  match opcodeNames.lookup tok with
  | some c => some c
  | none => byteOf tok

/-- Several byte operands. -/
def bytesOf : List (List Char) → Option (List Byte)
  | [] => some []
  | tok :: rest =>
    match byteOf tok, bytesOf rest with
    | some b, some bs => some (b :: bs)
    | _, _ => none

/-- An operand read, or the error that it is none. -/
def withOperand {α β : Type} (x : Option α) (f : α → β) : Except AsmError β :=
  match x with
  | some a => .ok (f a)
  | none => .error .badOperand

/-- The operands of SENDPKT (R93). -/
def sendPktOf : List Byte → Option Pseudo
  | channel :: resendCount :: resendDelay :: data =>
    some (.sendPkt channel resendCount resendDelay data)
  | _ => none

/-- The operands of GETPKTS: a channel and a 32-bit timeout (R93, R174). -/
def getPktsOf (ch t : List Char) : Option Pseudo :=
  match byteOf ch, numberOf t with
  | some c, some n => if n < 2 ^ 32 then some (.getPkts c (BitVec.ofNat 32 n)) else none
  | _, _ => none

/-- A statement without operands (R91, R92, R93). -/
def bareStatement (m : List Char) : Except AsmError Statement :=
  if m = "TXCLR".toList then .ok (.instr .txclr)
  else if m = "READ".toList then .ok (.instr .read)
  else if m = "PXSTART".toList then .ok (.instr .pxstart)
  else if m = "PXEND".toList then .ok (.instr .pxend)
  else if m = "EXTRACT".toList then .ok (.pseudo (.extract []))
  else if m = "FW_RESET".toList then .ok (.pseudo .fwReset)
  else if m = "GETSTATE".toList then .ok (.pseudo .getState)
  else if m = "GETVERSION".toList then .ok (.pseudo .getVersion)
  else .error .badStatement

/-- A statement whose mnemonic takes one operand or more (R91, R92, R93). -/
def operandStatement (m x : List Char) (more : List (List Char)) : Except AsmError Statement :=
  if m = "FRAME".toList then
    match opcodeOf x, bytesOf more with
    | some op, some payload => .ok (.pseudo (.frame op payload))
    | _, _ => .error .badOperand
  else if m = "EXTRACT".toList then withOperand (bytesOf (x :: more)) (.pseudo ∘ .extract)
  else if m = "SENDPKT".toList then
    withOperand ((bytesOf (x :: more)).bind sendPktOf) .pseudo
  else
    match more with
    | [] =>
      if m = "BREV".toList then withOperand (byteOf x) (.instr ∘ .brev)
      else if m = "TXPUSH".toList then withOperand (byteOf x) (.instr ∘ .txpush)
      else if m = "SEND".toList then withOperand (opcodeOf x) (.instr ∘ .send)
      else if m = "PXBYTE".toList then withOperand (byteOf x) (.instr ∘ .pxbyte)
      else .error .badStatement
    | [y] =>
      if m = "SETLED".toList then
        match byteOf x, byteOf y with
        | some index, some value => .ok (.pseudo (.setLed index value))
        | _, _ => .error .badOperand
      else if m = "GETPKTS".toList then withOperand (getPktsOf x y) .pseudo
      else .error .badStatement
    | _ => .error .badStatement

/-- One line of assembly text (R91). -/
def parseLine (line : List Char) : Except AsmError Statement :=
  match tokensFrom [] line with
  | [] => .ok .blank
  | [m] => bareStatement m
  | m :: x :: more => operandStatement m x more

/-- The command words of a statement: `CW = (OP << 12) | ARG`, pseudo-instructions expanded (R91, R92). -/
def assembleStatement : Statement → Except AsmError (List Word)
  | .blank => .ok []
  | .instr i => .ok [(encode i).carrier]
  | .pseudo p =>
    match p.expand with
    | some words => .ok words
    | none => .error .payloadTooLong

/-- The command words of a line (R91, R92, R93). -/
def assembleLine (line : List Char) : Except AsmError (List Word) :=
  match parseLine line with
  | .ok st => assembleStatement st
  | .error e => .error e

end Sys2Proof.Machine
end

