-- ==== Sys2Proof/Safety.lean ====
section
/-! DEFINITION. The terms statements are made in: the invariants of R40, what a step may do, and the
wire sequences of R134. -/

namespace Sys2Proof.Machine

/-! ### The invariants of R40 -/

/-- The buffers stay in their capacities (R40 I-c, I-e), a candidate holds no delimiter (R151, R152), and
OVF is set only on a full candidate (R32). -/
abbrev State.BuffersBounded (s : State) : Prop :=
  s.txbuf.length ≤ txMax ∧ s.cand.length ≤ pxMax ∧ (∀ b ∈ s.cand, b ≠ delim)
    ∧ (s.ovf = true → s.cand.length = pxMax)

/-- The ReceiveBuffer: `RXCNT + REM` never exceeds 255, the largest length (R40 I-c), and while AWAIT is 1
nothing has been received, under NEXT_AFTER_SYNC only (R25, R40 I-d). -/
abbrev State.ReceiveBounded (s : State) : Prop :=
  s.rxbuf.length + s.rem.toNat ≤ rxCap
    ∧ (s.awaiting = true → s.rxbuf = [] ∧ s.rem = 0#8 ∧ s.lenSrc = .nextAfterSync)

/-- What each PHASE of an exchange implies: before the sync transfer the ReceiveBuffer is reset (R122,
R40 I-d); FRAME belongs to SEND (I-f); FILL has something to wait for (I-g), and for a SEND that is
never the length (R132). -/
abbrev State.PhaseConsistent (s : State) : Prop :=
  (s.phase = .sync → s.awaiting = false ∧ s.rem = 0#8 ∧ s.rxbuf = [] ∧ s.txi = 0#8)
    ∧ (s.phase = .frame → s.kind = .cmd ∧ (s.awaiting = true → s.txi = 0#8))
    ∧ (s.phase = .fill → s.awaiting = true ∨ s.rem ≠ 0#8)
    ∧ (s.phase = .fill → s.kind = .cmd → s.awaiting = false)

/-- What an exchange sends: `TXI ≤ TXCNT + 1` while BUSY (R30, R40 I-e); TXI differs from 0 only by the frame of a
SEND, the last exchange to start (R30, R122), so that the bound also holds after a READ and before any SEND;
and TXOP of a running SEND is one of the six opcodes (R123, R170). In IDLE after a SEND that ended, TXI is
still the index its own frame reached, with TXCNT cleared (R132, R133; log 10). -/
abbrev State.SendConsistent (s : State) : Prop :=
  (s.phase ≠ .idle → s.txi.toNat ≤ s.txbuf.length + 1)
    ∧ (s.txi ≠ 0#8 → s.kind = .cmd ∧ isCommandOpcode s.txop = true)
    ∧ (s.phase ≠ .idle → s.kind = .cmd → isCommandOpcode s.txop = true)

/-- The invariants of R40 that one state can show, and those they rest on. -/
abbrev State.Inv (s : State) : Prop :=
  s.BuffersBounded ∧ s.ReceiveBounded ∧ s.PhaseConsistent ∧ s.SendConsistent

/-! ### Steps -/

/-- `rst` is 0 in the coming step (R20). -/
abbrev State.rstLow (s : State) : Prop := s.rstIn.head? ≠ some true

/-- The state with the level of `rst` that the coming step sees taken off the input. -/
def State.dropRst (s : State) : State := { s with rstIn := s.rstIn.tail }

/-- The core is BUSY and the transport has no answer to give (R130, I6). -/
abbrev State.Waiting (s : State) : Prop := s.phase ≠ .idle ∧ s.xferIn = []

/-- A step that stops does so only where the spec leaves the core stuck for ever (R130, I6). -/
abbrev State.StepsOrHangs (s : State) : Prop :=
  (∃ t, step s = .next t) ∨ (step s = .fault .transportSilent ∧ s.Waiting ∧ s.rstIn = [])

/-- `k` steps of the machine, as the host runs it. -/
def runSteps (k : Nat) (s : State) : Host.Outcome State Fault Refusal :=
  Host.Core.run Sys2Proof.core k s

/-- How many DONE events a history holds. -/
def doneCount (events : List Event) : Nat :=
  events.countP fun
    | .done _ _ _ => true
    | .pkt _ => false

/-- The packets of a history, in order. -/
def packetsOf (events : List Event) : List (List Byte) :=
  events.filterMap fun
    | .done _ _ _ => none
    | .pkt data => some data

/-- One while an exchange runs: an accepted word whose DONE is still to come (R81). -/
def State.owed (s : State) : Nat := if s.phase = .idle then 0 else 1

/-! ### Classes of instructions (the columns of R42) -/

/-- Operations of PX. -/
def usesPx : Instr → Bool
  | .pxstart => true
  | .pxbyte _ => true
  | .pxend => true
  | .brev _ => false
  | .txclr => false
  | .txpush _ => false
  | .send _ => false
  | .read => false
  | .reset => false
  | .getState => false
  | .getVersion => false
  | .getPacket => false
  | .sendPacket => false
  | .setLed => false

/-- Operations that write the transmit payload at their acceptance. -/
def loadsPayload : Instr → Bool
  | .txclr => true
  | .txpush _ => true
  | .brev _ => false
  | .send _ => false
  | .read => false
  | .pxstart => false
  | .pxbyte _ => false
  | .pxend => false
  | .reset => false
  | .getState => false
  | .getVersion => false
  | .getPacket => false
  | .sendPacket => false
  | .setLed => false

/-- Operations whose acceptance starts an exchange: READ, and SEND of one of the six opcodes. -/
def startsExchange : Instr → Bool
  | .send c => isCommandOpcode c
  | .read => true
  | .reset => true
  | .getState => true
  | .getVersion => true
  | .getPacket => true
  | .sendPacket => true
  | .setLed => true
  | .brev _ => false
  | .txclr => false
  | .txpush _ => false
  | .pxstart => false
  | .pxbyte _ => false
  | .pxend => false

/-! ### Packet streams (R155) -/

/-- The terminated candidates of a stream, from a candidate in progress on: the bytes between two
boundaries that end in a delimiter. -/
def terminatedFrom (cand : List Byte) : List Byte → List (List Byte)
  | [] => []
  | b :: rest =>
    if b = delim then cand :: terminatedFrom [] rest else terminatedFrom (cand ++ [b]) rest

/-- The terminated candidates of a whole buffer. -/
def terminated (buffer : List Byte) : List (List Byte) := terminatedFrom [] buffer

/-! ### Wire sequences (R134) -/

/-- The transport answers each transfer with the wire form of these host-order bytes (R50). -/
def answers (host : List Byte) : List Reply := host.map fun h => .ok (brev8 h)

/-- The transfers of wire bytes `tx` answered by those host-order bytes. -/
def transfersOf (tx host : List Byte) : List Transfer :=
  List.zipWith (fun t h => ⟨t, .ok (brev8 h)⟩) tx host

/-- The wire bytes of a SEND: sync, the reversed frame, and fillers (R134). -/
def sendWire (src : LenSrc) (c : Byte) (payload : List Byte) (len : Nat) : List Byte :=
  0x99#8 :: ((BitVec.ofNat 8 (payload.length + 1) :: c :: payload).map brev8 ++
    List.replicate
      (match src with
        | .nextAfterSync => len - payload.length - 1
        | .syncReply => len - payload.length - 2) 0x00#8)

/-- The wire bytes of a READ (R134). -/
def readWire (src : LenSrc) (len : Nat) : List Byte :=
  0x99#8 :: List.replicate
    (match src with
      | .nextAfterSync => len + 1
      | .syncReply => len) 0x00#8

/-- The response in the host-order replies of an exchange: the length byte and what follows it (R88,
R134). -/
def responseOf (src : LenSrc) (host : List Byte) : List Byte :=
  match src with
  | .nextAfterSync => host.drop 1
  | .syncReply => host

end Sys2Proof.Machine
end

