-- ==== Sys2Proof/Certificates/Slice0/Obligations.lean ====
section
/-! DEFINITION. The statements for the provers, each named for what it states. A record update in a
conclusion is the whole frame: every field it does not name is unchanged. -/

open Sys2Proof Sys2Proof.Machine

/-! ### BREV8 -/

/-- R100: `y[i] = a[7 - i]` for every i from 0 to 7. -/
def Obligations.BrevReversesEveryBit : Prop :=
  ∀ (a : Byte) (i : Nat), i < 8 → (brev8 a).getLsbD i = a.getLsbD (7 - i)

/-- R103: reversal is its own inverse. -/
def Obligations.BrevIsItsOwnInverse : Prop := ∀ b : Byte, brev8 (brev8 b) = b

/-- R102: the word `0x1000 | a` is BREV(a), which always completes: it answers DONE(0x1, OK, [brev8(a)]),
sets LAST_ERR to OK and writes nothing else. -/
def Obligations.BrevAnswersTheReversedByte : Prop :=
  ∀ (a : Byte) (s : State),
    decodeWord (0x1000#16 ||| a.setWidth 16) = .ok (.brev a) ∧
    exec (.brev a) s =
      .next { s with lastErr := .ok, rsp := s.rsp ++ [.done 0x1#4 .ok [brev8 a]] }

/-! ### The transmit payload -/

/-- R120: the word 0x2000 is TXCLR, which always completes: it empties the payload. -/
def Obligations.TxclrEmptiesThePayload : Prop :=
  ∀ s : State,
    decodeWord 0x2000#16 = .ok .txclr ∧
    exec .txclr s =
      .next { s with txbuf := [], lastErr := .ok, rsp := s.rsp ++ [.done 0x2#4 .ok []] }

/-- R121: the word `0x3000 | p` is TXPUSH(p): with fewer than 254 bytes held it appends p, with 254 it
reports ERR_TXFULL and changes nothing else. -/
def Obligations.TxpushAppendsUntil254Bytes : Prop :=
  ∀ (p : Byte) (s : State),
    decodeWord (0x3000#16 ||| p.setWidth 16) = .ok (.txpush p) ∧
    (s.txbuf.length < 254 → exec (.txpush p) s =
      .next { s with
        txbuf := s.txbuf ++ [p], lastErr := .ok, rsp := s.rsp ++ [.done 0x3#4 .ok []] }) ∧
    (s.txbuf.length = 254 → exec (.txpush p) s =
      .next { s with
        lastErr := .errTxfull, rsp := s.rsp ++ [.done 0x3#4 .errTxfull []] })

/-! ### Starting an exchange -/

/-- R122: SEND of one of the six opcodes, and READ, complete their acceptance by the exchange start: KIND,
ReceiveBuffer empty, false and 0, TXI 0, PHASE SYNC. Nothing is emitted and LAST_ERR is not written.
SEND also writes TXOP (R123). -/
def Obligations.SendAndReadStartTheExchange : Prop :=
  ∀ s : State,
    (∀ c ∈ [0x01#8, 0x02#8, 0x03#8, 0x04#8, 0x07#8, 0x08#8],
      exec (.send c) s = .next { s with
        txop := c, kind := .cmd, awaiting := false, rem := 0#8, rxbuf := [], txi := 0#8,
        phase := .sync }) ∧
    exec .read s = .next { s with
      kind := .read, awaiting := false, rem := 0#8, rxbuf := [], txi := 0#8, phase := .sync }

/-- R123, R170: SEND of any other byte answers ERR_BADCMD and starts no exchange; the payload is kept. -/
def Obligations.SendRefusesOtherOpcodes : Prop :=
  ∀ (c : Byte) (s : State), c ∉ [0x01#8, 0x02#8, 0x03#8, 0x04#8, 0x07#8, 0x08#8] →
    exec (.send c) s =
      .next { s with lastErr := .errBadcmd, rsp := s.rsp ++ [.done 0x4#4 .errBadcmd []] }

/-- R170 to R176: the six frame commands complete their acceptance, each as the SEND that carries its
opcode, with whatever payload is held. That a frame opcode by itself is such a SEND is the model's reading
(log 6). -/
def Obligations.FrameCommandsStartTheExchange : Prop :=
  ∀ s : State,
    let started (c : Byte) : Host.Outcome State Fault Refusal := .next { s with
      txop := c, kind := .cmd, awaiting := false, rem := 0#8, rxbuf := [], txi := 0#8,
      phase := .sync }
    exec .reset s = started 0x07#8 ∧ exec .getState s = started 0x01#8 ∧
    exec .getVersion s = started 0x02#8 ∧ exec .getPacket s = started 0x03#8 ∧
    exec .sendPacket s = started 0x04#8 ∧ exec .setLed s = started 0x08#8

/-! ### The packet extractor -/

/-- R150: the word 0x6000 is PXSTART, which always completes and discards any candidate in progress. -/
def Obligations.PxstartDiscardsTheCandidate : Prop :=
  ∀ s : State,
    decodeWord 0x6000#16 = .ok .pxstart ∧
    exec .pxstart s = .next { s with
      cand := [], ovf := false, lastErr := .ok, rsp := s.rsp ++ [.done 0x6#4 .ok []] }

/-- R152: the word `0x7000 | b` is PXBYTE(b), in its four cases: a delimiter that ends a candidate longer
than its header, with OVF clear, emits the packet before the DONE; any other delimiter emits none; another
byte is appended while fewer than 255 are held; at 255 it sets OVF and is lost. -/
def Obligations.PxbyteFeedsTheCandidate : Prop :=
  ∀ (b : Byte) (s : State),
    decodeWord (0x7000#16 ||| b.setWidth 16) = .ok (.pxbyte b) ∧
    (b = 0x00#8 → s.ovf = false → 2 < s.cand.length → exec (.pxbyte b) s = .next { s with
      cand := [], ovf := false, lastErr := .ok,
      rsp := s.rsp ++ [.pkt (s.cand.drop 2), .done 0x7#4 .ok []] }) ∧
    (b = 0x00#8 → s.ovf = true ∨ s.cand.length ≤ 2 → exec (.pxbyte b) s = .next { s with
      cand := [], ovf := false, lastErr := .ok, rsp := s.rsp ++ [.done 0x7#4 .ok []] }) ∧
    (b ≠ 0x00#8 → s.cand.length < 255 → exec (.pxbyte b) s = .next { s with
      cand := s.cand ++ [b], lastErr := .ok, rsp := s.rsp ++ [.done 0x7#4 .ok []] }) ∧
    (b ≠ 0x00#8 → s.cand.length = 255 → exec (.pxbyte b) s = .next { s with
      ovf := true, lastErr := .errPxovf, rsp := s.rsp ++ [.done 0x7#4 .errPxovf []] })

/-- R154: the word 0x8000 is PXEND, which always completes and drops the trailing bytes. -/
def Obligations.PxendDropsTrailingBytes : Prop :=
  ∀ s : State,
    decodeWord 0x8000#16 = .ok .pxend ∧
    exec .pxend s = .next { s with
      cand := [], ovf := false, lastErr := .ok, rsp := s.rsp ++ [.done 0x8#4 .ok []] }

/-- R153: a packet event carries the candidate without its two header bytes, 1 to 253 bytes, none of them
0x00. In a state that meets the invariants of R40, a step emits at most one. -/
def Obligations.PacketsCarryTheCandidateWithoutHeader : Prop :=
  ∀ s t : State, s.Inv → step s = .next t →
    ∃ new : List (List Byte), packetsOf t.rsp = packetsOf s.rsp ++ new ∧ new.length ≤ 1 ∧
      ∀ p ∈ new, p = s.cand.drop 2 ∧ 1 ≤ p.length ∧ p.length ≤ 253 ∧ ∀ b ∈ p, b ≠ 0x00#8

/-- R155: PXSTART, PXBYTE of every byte of a buffer and PXEND emit exactly the packets of `extract`, in
order, when every terminated candidate has at most 255 bytes. Each of the words gets one DONE, whose status
is OK, or ERR_PXOVF for a PXBYTE; and OK throughout for a buffer of at most 255 bytes. -/
def Obligations.ExtractionAgreesWithTheSourceFunction : Prop :=
  ∀ (buffer : List Byte) (rest : List Word) (s : State),
    s.phase = .idle → s.rstIn = [] → s.cmdIn = expandExtract buffer ++ rest →
    (∀ c ∈ terminated buffer, c.length ≤ 255) →
    ∃ (t : State) (new : List Event),
      runSteps (buffer.length + 2) s = .next t ∧
      t.rsp = s.rsp ++ new ∧ packetsOf new = extract buffer ∧
      doneCount new = buffer.length + 2 ∧
      (∀ op st data, .done op st data ∈ new →
        st = .ok ∨ (st = .errPxovf ∧ op = 0x7#4 ∧ 255 < buffer.length)) ∧
      t = { s with cand := [], ovf := false, lastErr := .ok, cmdIn := rest, rsp := t.rsp }

/-! ### Transfers -/

/-- R126: the SYNC transfer sends 0x99. Under NEXT_AFTER_SYNC its reply is discarded and AWAIT set; under
SYNC_REPLY its reply is the length, and a READ of length 0 completes at once. A failed transfer aborts. -/
def Obligations.SyncTransferStartsTheLength : Prop :=
  ∀ (s : State) (w : Byte) (rest : List Reply), s.rstLow → s.phase = .sync →
    (s.xferIn = .ok w :: rest → s.lenSrc = .nextAfterSync → step s = .next { s with
      rstIn := s.rstIn.tail, bus := s.bus ++ [⟨0x99#8, .ok w⟩], xferIn := rest, awaiting := true,
      phase := if s.kind = .cmd then .frame else .fill }) ∧
    (s.xferIn = .ok w :: rest → s.lenSrc = .syncReply → (s.kind = .cmd ∨ brev8 w ≠ 0#8) →
      step s = .next { s with
        rstIn := s.rstIn.tail, bus := s.bus ++ [⟨0x99#8, .ok w⟩], xferIn := rest,
        rem := brev8 w, awaiting := false, phase := if s.kind = .cmd then .frame else .fill }) ∧
    (s.xferIn = .ok w :: rest → s.lenSrc = .syncReply → s.kind = .read → brev8 w = 0#8 →
      step s = .next { s with
        rstIn := s.rstIn.tail, bus := s.bus ++ [⟨0x99#8, .ok w⟩], xferIn := rest,
        rem := 0#8, awaiting := false, rxbuf := [], phase := .idle, lastErr := .ok,
        rsp := s.rsp ++ [.done 0x5#4 .ok s.rxbuf] }) ∧
    (s.xferIn = .fail :: rest → step s = .next (abortExchange { s with
      rstIn := s.rstIn.tail, bus := s.bus ++ [⟨0x99#8, .fail⟩], xferIn := rest }))

/-- R127: the FRAME transfer sends the reversed frame byte TXI; its reversed reply goes through rx_accept.
Before the last frame byte TXI advances; the last one moves RXF to FILL and checks completion. A failed
transfer aborts. -/
def Obligations.FrameTransferSendsFrameByteTxi : Prop :=
  ∀ (s : State) (b w : Byte) (rest : List Reply), s.rstLow → s.phase = .frame →
    frameByte s s.txi.toNat = some b →
    (s.xferIn = .ok w :: rest → s.txi.toNat ≠ s.txbuf.length + 1 →
      step s = .next { rxAccept (brev8 w) { s with
          rstIn := s.rstIn.tail, bus := s.bus ++ [⟨brev8 b, .ok w⟩], xferIn := rest } with
        txi := s.txi + 1#8 }) ∧
    (s.xferIn = .ok w :: rest → s.txi.toNat = s.txbuf.length + 1 →
      step s = .next (checkComplete { rxAccept (brev8 w) { s with
          rstIn := s.rstIn.tail, bus := s.bus ++ [⟨brev8 b, .ok w⟩], xferIn := rest } with
        phase := .fill })) ∧
    (s.xferIn = .fail :: rest → step s = .next (abortExchange { s with
      rstIn := s.rstIn.tail, bus := s.bus ++ [⟨brev8 b, .fail⟩], xferIn := rest }))

/-- R128: what a received byte does: latch the length, append, or nothing. -/
def Obligations.ReceivedBytesLatchAppendOrVanish : Prop :=
  ∀ (r : Byte) (s : State),
    (s.awaiting = true → rxAccept r s = { s with rem := r, awaiting := false }) ∧
    (s.awaiting = false → 0 < s.rem.toNat →
      rxAccept r s = { s with rxbuf := s.rxbuf ++ [r], rem := s.rem - 1#8 } ∧
      (rxAccept r s).rem.toNat = s.rem.toNat - 1) ∧
    (s.awaiting = false → s.rem.toNat = 0 → rxAccept r s = s)

/-- R129: the FILL transfer sends 0x00, its reversed reply goes through rx_accept, and completion is
checked. A failed transfer aborts. -/
def Obligations.FillTransferPullsOneByte : Prop :=
  ∀ (s : State) (w : Byte) (rest : List Reply), s.rstLow → s.phase = .fill →
    (s.xferIn = .ok w :: rest → step s = .next (checkComplete (rxAccept (brev8 w)
      { s with rstIn := s.rstIn.tail, bus := s.bus ++ [⟨0x00#8, .ok w⟩], xferIn := rest }))) ∧
    (s.xferIn = .fail :: rest → step s = .next (abortExchange { s with
      rstIn := s.rstIn.tail, bus := s.bus ++ [⟨0x00#8, .fail⟩], xferIn := rest }))

/-- R131: under NEXT_AFTER_SYNC a READ's sync transfer is followed by a filler transfer whose reply is the
length: two steps from the sync transfer of a reset ReceiveBuffer, the length L > 0 is latched and RXF still
fills; with L = 0 the READ has answered no bytes. Under SYNC_REPLY no such transfer is made: one step. -/
def Obligations.ReadFetchesTheLengthByAFiller : Prop :=
  ∀ (s : State) (x w : Byte) (rest : List Reply),
    s.phase = .sync → s.kind = .read → s.rxbuf = [] → s.rem = 0#8 → s.rstIn = [] →
    (s.lenSrc = .nextAfterSync → s.xferIn = .ok x :: .ok w :: rest → brev8 w ≠ 0#8 →
      runSteps 2 s = .next { s with
        bus := s.bus ++ [⟨0x99#8, .ok x⟩, ⟨0x00#8, .ok w⟩], xferIn := rest, awaiting := false,
        rem := brev8 w, phase := .fill }) ∧
    (s.lenSrc = .nextAfterSync → s.xferIn = .ok x :: .ok w :: rest → brev8 w = 0#8 →
      runSteps 2 s = .next { s with
        bus := s.bus ++ [⟨0x99#8, .ok x⟩, ⟨0x00#8, .ok w⟩], xferIn := rest, awaiting := false,
        phase := .idle, lastErr := .ok, rsp := s.rsp ++ [.done 0x5#4 .ok []] }) ∧
    (s.lenSrc = .syncReply → s.xferIn = .ok w :: rest → brev8 w ≠ 0#8 →
      runSteps 1 s = .next { s with
        bus := s.bus ++ [⟨0x99#8, .ok w⟩], xferIn := rest, awaiting := false,
        rem := brev8 w, phase := .fill })

/-- R132: completion, in FILL with AWAIT = 0 and REM = 0: a SEND consumes the payload and answers no data; a
READ answers the accumulated bytes and empties the ReceiveBuffer. Otherwise nothing changes. -/
def Obligations.CompletionAnswersTheCommand : Prop :=
  ∀ s : State,
    (s.phase = .fill ∧ s.awaiting = false ∧ s.rem = 0#8 ∧ s.kind = .cmd →
      checkComplete s = { s with
        txbuf := [], phase := .idle, lastErr := .ok, rsp := s.rsp ++ [.done 0x4#4 .ok []] }) ∧
    (s.phase = .fill ∧ s.awaiting = false ∧ s.rem = 0#8 ∧ s.kind = .read →
      checkComplete s = { s with
        rxbuf := [], phase := .idle, lastErr := .ok,
        rsp := s.rsp ++ [.done 0x5#4 .ok s.rxbuf] }) ∧
    (¬ (s.phase = .fill ∧ s.awaiting = false ∧ s.rem = 0#8) → checkComplete s = s)

/-- R133: a failed transfer ends the exchange with ERR_TRANSPORT. A SEND's payload is consumed; AWAIT, REM,
RXBUF, RXCNT, TXI and TXOP keep their values, and no further transfer is made. -/
def Obligations.FailedTransferAbortsTheExchange : Prop :=
  ∀ (s : State) (b : Byte) (rest : List Reply), s.rstLow → s.wireOut = some b →
    s.xferIn = .fail :: rest →
    (s.kind = .cmd → step s = .next { s with
      rstIn := s.rstIn.tail, bus := s.bus ++ [⟨b, .fail⟩], xferIn := rest,
      txbuf := [], phase := .idle,
      lastErr := .errTransport, rsp := s.rsp ++ [.done 0x4#4 .errTransport []] }) ∧
    (s.kind = .read → step s = .next { s with
      rstIn := s.rstIn.tail, bus := s.bus ++ [⟨b, .fail⟩], xferIn := rest, phase := .idle,
      lastErr := .errTransport, rsp := s.rsp ++ [.done 0x5#4 .errTransport []] })

/-- R85, R125: the frame is `[TXCNT + 1, TXOP]` and the payload; frame_byte(i) is its element i; its length
byte is exact while the payload has at most 254 bytes; in FRAME the wire byte is frame byte TXI reversed. -/
def Obligations.FrameIsLengthOpcodePayload : Prop :=
  ∀ s : State,
    s.frameBytes = [BitVec.ofNat 8 (s.txbuf.length + 1), s.txop] ++ s.txbuf ∧
    s.frameBytes.length = s.txbuf.length + 2 ∧
    (∀ i : Nat, frameByte s i = s.frameBytes[i]?) ∧
    (s.txbuf.length ≤ 254 → s.frameBytes.head?.map BitVec.toNat = some (s.txbuf.length + 1)) ∧
    (s.phase = .frame → s.wireOut = s.frameBytes[s.txi.toNat]?.map brev8)

/-- R171 to R176: the frames of the six commands over the payloads their rules give, in host order. -/
def Obligations.CommandFramesMatchTheirLayouts : Prop :=
  ∀ s : State,
    (∀ c, s.txop = c → s.txbuf = [] → s.frameBytes = [0x01#8, c]) ∧
    (∀ channel t, s.txop = 0x03#8 → s.txbuf = getPacketPayload channel t →
      s.frameBytes = [0x06#8, 0x03#8, channel, t.extractLsb' 0 8, t.extractLsb' 8 8,
        t.extractLsb' 16 8, t.extractLsb' 24 8]) ∧
    (∀ channel count delay data, s.txop = 0x04#8 →
      s.txbuf = sendPacketPayload channel count delay data →
      s.frameBytes =
        [BitVec.ofNat 8 (data.length + 5), 0x04#8, channel, count, delay] ++ data ++ [0x00#8]) ∧
    (∀ index value, s.txop = 0x08#8 → s.txbuf = setLedPayload index value →
      s.frameBytes = [0x03#8, 0x08#8, index, value])

/-! ### Steps -/

/-- R10, R74: when the core is idle, `rst` is 0 and the word offered first decodes to i, the step takes the
word off the offers and runs exec of i. -/
def Obligations.StepRunsTheDecodedCommand : Prop :=
  ∀ (s : State) (cw : Word) (rest : List Word) (i : Instr),
    s.rstLow → s.phase = .idle → s.cmdIn = cw :: rest → decodeWord cw = .ok i →
    step s = exec i { s with rstIn := s.rstIn.tail, cmdIn := rest }

/-- R171 to R176: when the word offered first is the SEND that carries a frame opcode, the step runs exec of
the frame command that opcode decodes to. That the opcode's row is read so is the model's choice (log 6). -/
def Obligations.StepRunsTheCarriedFrameCommand : Prop :=
  ∀ (s : State) (c : Byte) (rest : List Word) (i : Instr),
    s.rstLow → s.phase = .idle → s.cmdIn = (0x4000#16 ||| c.setWidth 16) :: rest →
    decodeOpcode c = .ok i → step s = exec i { s with rstIn := s.rstIn.tail, cmdIn := rest }

/-- The model's choice (log 5, log 6): a state with a table row's bits placed for fetching runs the
instruction the decoder reads from them in its very next step. -/
def Obligations.PlacedWordRunsNext : Prop :=
  ∀ (s : State) (nbits w : Nat) (i : Instr), decodeTableWord nbits w = some i →
    step (s.withFetchWord nbits w) = exec i { s with rstIn := s.rstIn.tail, phase := .idle }

/-- R202: an illegal command word answers DONE with its own OP and ERR_ILLEGAL, and changes nothing else
than LAST_ERR. -/
def Obligations.IllegalWordOnlyReports : Prop :=
  ∀ (s : State) (cw : Word) (rest : List Word),
    s.rstLow → s.phase = .idle → s.cmdIn = cw :: rest → legalWord cw = false →
    step s = .next { s with
      rstIn := s.rstIn.tail, cmdIn := rest, lastErr := .errIllegal,
      rsp := s.rsp ++ [.done (cw.extractLsb' 12 4) .errIllegal []] }

/-- R233, R57, R111: while BUSY and `rst` is 0, an answered step makes exactly one transfer, of the byte on
`xfer_tx`, takes exactly one answer, and accepts no word: the words offered stay as they are. While idle no
transfer is made. -/
def Obligations.BusyStepsTransferAndAcceptNoWord : Prop :=
  ∀ s t : State, s.rstLow → step s = .next t →
    (s.phase ≠ .idle → t.cmdIn = s.cmdIn ∧
      (∀ r rest, s.xferIn = r :: rest →
        t.xferIn = rest ∧ ∃ b, s.wireOut = some b ∧ t.bus = s.bus ++ [⟨b, r⟩])) ∧
    (s.phase = .idle → t.bus = s.bus ∧ t.xferIn = s.xferIn ∧ t.cmdIn = s.cmdIn.tail)

/-- R81: each accepted word gets exactly one DONE: in every step with `rst` at 0, the DONE events emitted,
the exchange whose DONE is owed and the words not yet accepted add up to the same number. -/
def Obligations.EveryAcceptedWordGetsOneDone : Prop :=
  ∀ s t : State, s.rstLow → step s = .next t →
    doneCount t.rsp + t.owed + t.cmdIn.length = doneCount s.rsp + s.owed + s.cmdIn.length

/-- R81, R82: a word whose acceptance starts no exchange is answered in the same step, by a DONE with the
word's own OP as that step's last event; any packet comes before it. -/
def Obligations.SameStepDoneCarriesTheWordsOp : Prop :=
  ∀ (s t : State) (cw : Word) (rest : List Word),
    s.rstLow → s.phase = .idle → s.cmdIn = cw :: rest → step s = .next t → t.phase = .idle →
    ∃ (packets : List (List Byte)) (st : Status) (data : List Byte),
      t.rsp = s.rsp ++ packets.map .pkt ++ [.done (cw.extractLsb' 12 4) st data]

/-- R33, R200, R207: in a step with `rst` at 0 either no DONE is emitted and LAST_ERR is unchanged, or one is,
as the step's last event, LAST_ERR is its status, and the core is ready for the next command. -/
def Obligations.LastErrIsTheLatestStatus : Prop :=
  ∀ s t : State, s.rstLow → step s = .next t →
    (t.rsp = s.rsp ∧ t.lastErr = s.lastErr) ∨
    (∃ (packets : List (List Byte)) (op : Nibble) (data : List Byte),
      t.rsp = s.rsp ++ packets.map .pkt ++ [.done op t.lastErr data] ∧ t.phase = .idle)

/-- R82, R230: no step, a reset included, takes back an event or a transfer; each adds at most two events and
one transfer. -/
def Obligations.HistoriesOnlyGrow : Prop :=
  ∀ s t : State, step s = .next t →
    ∃ (events : List Event) (transfers : List Transfer),
      t.rsp = s.rsp ++ events ∧ events.length ≤ 2 ∧
      t.bus = s.bus ++ transfers ∧ transfers.length ≤ 1

/-- R80: a DONE carries at most 255 data bytes, and any only as the OK answer of BREV (OP 0x1) or READ (OP 0x5);
a packet has 1 to 253 bytes. In every step from a state that meets the invariants of R40. -/
def Obligations.EventDataStaysInItsBounds : Prop :=
  ∀ s t : State, s.Inv → step s = .next t →
    ∃ events : List Event, t.rsp = s.rsp ++ events ∧
      (∀ op st data, .done op st data ∈ events →
        data.length ≤ 255 ∧ (data ≠ [] → st = .ok ∧ (op = 0x1#4 ∨ op = 0x5#4))) ∧
      (∀ data, .pkt data ∈ events → 1 ≤ data.length ∧ data.length ≤ 253)

/-- R40 (I-c), R135: once the length is latched, `RXCNT + REM` stays the same until the exchange ends, and a SEND
that completes leaves RXCNT at that sum. -/
def Obligations.ReceivedPlusRemainingIsConserved : Prop :=
  ∀ s t : State, s.rstLow → s.phase = .frame ∨ s.phase = .fill → s.awaiting = false →
    step s = .next t →
    (t.phase ≠ .idle → t.awaiting = false ∧
      t.rxbuf.length + t.rem.toNat = s.rxbuf.length + s.rem.toNat) ∧
    (t.phase = .idle → t.lastErr = .ok → s.kind = .cmd →
      t.rxbuf.length = s.rxbuf.length + s.rem.toNat)

/-- R30, R40 (I-e): an exchange start and a reset set TXI to 0; a FRAME transfer that did not send the last frame byte
adds exactly 1, never wrapping; every other step leaves TXI as it is, the one that sends the last frame byte
(index TXCNT + 1) among them, and that one leaves FRAME. `TXI ≤ TXCNT + 1` with the TXCNT that the exchange frames,
in every step of it with `rst` at 0, also in the one that ends it, and with the state's own TXCNT while BUSY, after
a READ and before any SEND. In IDLE after a SEND that ended TXI stays where its frame left it and TXCNT is 0
(R132, R133): the model follows those rules there (log 10). -/
def Obligations.TxiFollowsTheFrame : Prop :=
  ∀ s t : State, s.Inv → step s = .next t →
    (s.rstIn.head? = some true → t.txi = 0#8) ∧
    (s.phase = .idle → t.phase ≠ .idle → t.txi = 0#8) ∧
    (s.rstLow → s.phase = .idle → t.phase = .idle → t.txi = s.txi) ∧
    (s.rstLow → s.phase ≠ .idle → s.phase ≠ .frame → t.txi = s.txi) ∧
    (∀ w rest, s.rstLow → s.phase = .frame → s.xferIn = .ok w :: rest →
      (s.txi.toNat < s.txbuf.length + 1 →
        t.phase = .frame ∧ t.txi.toNat = s.txi.toNat + 1) ∧
      (s.txi.toNat = s.txbuf.length + 1 → t.phase ≠ .frame ∧ t.txi = s.txi)) ∧
    (s.rstLow → s.phase = .frame → (∀ w rest, s.xferIn ≠ .ok w :: rest) → t.txi = s.txi) ∧
    (s.rstLow → s.phase ≠ .idle → t.txi.toNat ≤ s.txbuf.length + 1) ∧
    (t.phase ≠ .idle ∨ t.kind = .read ∨ t.txop = 0x00#8 → t.txi.toNat ≤ t.txbuf.length + 1)

/-- R130, R135: an exchange ends, `rst` being 0, only by completion or abort. The step that ends it emits that
command's one DONE. A completed SEND leaves REM = 0 and AWAIT = 0, a completed READ also RXCNT = 0; after an
abort the ReceiveBuffer keeps the values it had. A SEND's DONE carries no data (R136). -/
def Obligations.ExchangeEndsByCompletionOrAbort : Prop :=
  ∀ s t : State, s.rstLow → step s = .next t → s.phase ≠ .idle → t.phase = .idle →
    (t.lastErr = .ok ∧ t.rem = 0#8 ∧ t.awaiting = false ∧
      ((s.kind = .cmd ∧ t.txbuf = [] ∧ t.rsp = s.rsp ++ [.done 0x4#4 .ok []]) ∨
       (s.kind = .read ∧ t.rxbuf = [] ∧ ∃ data, t.rsp = s.rsp ++ [.done 0x5#4 .ok data]))) ∨
    (t.lastErr = .errTransport ∧ t.rem = s.rem ∧ t.awaiting = s.awaiting ∧ t.rxbuf = s.rxbuf ∧
      ((s.kind = .cmd ∧ t.txbuf = [] ∧ t.rsp = s.rsp ++ [.done 0x4#4 .errTransport []]) ∨
       (s.kind = .read ∧ t.txbuf = s.txbuf ∧ t.rsp = s.rsp ++ [.done 0x5#4 .errTransport []])))

/-- R130, I6, R231: with no answer to come a BUSY core is stuck, with no timeout. With no level of `rst` to come
the step is a named fault, which is the model's choice for the hang (log 2). With an explicit 0 on `rst` the
core waits unchanged, which is the model's choice too (log 3). With a 1 the reset ends the wait (R231). -/
def Obligations.SilentTransportLeavesTheCoreStuck : Prop :=
  ∀ (s : State) (b : Byte), s.wireOut = some b → s.xferIn = [] →
    (s.rstIn = [] → step s = .fault .transportSilent) ∧
    (∀ rest, s.rstIn = false :: rest → step s = .next { s with rstIn := rest }) ∧
    (∀ rest, s.rstIn = true :: rest → ∃ t, step s = .next t ∧ t.phase = .idle)

/-- The model's choice (log 4): an idle core with no word offered and `rst` at 0 waits; nothing changes. -/
def Obligations.IdleCoreWaitsForAWord : Prop :=
  ∀ s : State, s.rstLow → s.phase = .idle → s.cmdIn = [] → step s = .next s.dropRst

/-- R42: which operation writes which state. PX alone writes CAND, CCNT and OVF; the exchange starters alone,
of the operations, write PHASE, TXI, KIND, AWAIT, REM, RXBUF and TXOP, and no LAST_ERR; TXCLR and TXPUSH alone,
of the operations, write the payload; READ does not write TXOP; a transfer writes neither KIND nor TXOP nor
PX state, LAST_ERR only when it ends the exchange, and the payload only when it ends a SEND. -/
def Obligations.OnlyTheListedOperationsWriteState : Prop :=
  (∀ (i : Instr) (s t : State), exec i s = .next t →
    (usesPx i = false → t.cand = s.cand ∧ t.ovf = s.ovf) ∧
    (startsExchange i = false → t.phase = s.phase ∧ t.txi = s.txi ∧ t.kind = s.kind ∧
      t.awaiting = s.awaiting ∧ t.rem = s.rem ∧ t.rxbuf = s.rxbuf ∧ t.txop = s.txop) ∧
    (startsExchange i = true → t.lastErr = s.lastErr ∧ t.rsp = s.rsp) ∧
    (loadsPayload i = false → t.txbuf = s.txbuf) ∧ (i = .read → t.txop = s.txop)) ∧
  (∀ s t : State, s.rstLow → s.phase ≠ .idle → step s = .next t →
    t.kind = s.kind ∧ t.txop = s.txop ∧ t.cand = s.cand ∧ t.ovf = s.ovf ∧
    (s.kind = .read → t.txbuf = s.txbuf) ∧
    (t.phase ≠ .idle → t.txbuf = s.txbuf ∧ t.lastErr = s.lastErr ∧ t.rsp = s.rsp))

/-- Every operation answers a next state, and leaves LEN_SRC, the transfers made and the inputs still to come
as they are: no operation of the core is refused and none stops it (R200, R35). -/
def Obligations.EveryOperationCompletes : Prop :=
  ∀ (i : Instr) (s : State), ∃ t, exec i s = .next t ∧
    t.lenSrc = s.lenSrc ∧ t.bus = s.bus ∧ t.rstIn = s.rstIn ∧ t.cmdIn = s.cmdIn ∧
    t.xferIn = s.xferIn

/-- R35: no step writes LEN_SRC, a reset included. -/
def Obligations.LenSrcIsFixed : Prop :=
  ∀ s t : State, step s = .next t → t.lenSrc = s.lenSrc

/-- PX is independent of RXF (D22, R42): on states that agree on CAND and OVF, a PX operation leaves the same
CAND, OVF and LAST_ERR and emits the same events, whatever RXF holds. -/
def Obligations.PxSeesOnlyItsOwnState : Prop :=
  ∀ (i : Instr) (s₁ s₂ : State), usesPx i = true → s₁.cand = s₂.cand → s₁.ovf = s₂.ovf →
    ∃ t₁ t₂ new, exec i s₁ = .next t₁ ∧ exec i s₂ = .next t₂ ∧
      t₁.cand = t₂.cand ∧ t₁.ovf = t₂.ovf ∧ t₁.lastErr = t₂.lastErr ∧
      t₁.rsp = s₁.rsp ++ new ∧ t₂.rsp = s₂.rsp ++ new

/-! ### Reset and the status words -/

/-- R39, R230: the reset values, all at once, with an empty event history, whatever LEN_SRC: BUSY is 0 and the
command port is ready. A later reset leaves those values in one step and takes back no event. The machine's
reset state is that of the default LEN_SRC. -/
def Obligations.ResetValuesAreTheSpecs : Prop :=
  (∀ src : LenSrc, let s := State.resetWith src
    s.phase = .idle ∧ s.kind = .cmd ∧ s.awaiting = false ∧ s.rem = 0#8 ∧ s.rxcnt = 0#8 ∧
    s.txcnt = 0#8 ∧ s.txop = 0x00#8 ∧ s.txi = 0#8 ∧ s.ccnt = 0#8 ∧ s.ovf = false ∧
    s.lastErr = .ok ∧ s.rsp = [] ∧ s.busy = false ∧ s.cmdReady = true) ∧
  (∀ (s : State) (rest : List Bool), s.rstIn = true :: rest →
    ∃ t, step s = .next t ∧ t = { State.resetWith s.lenSrc with
      rsp := s.rsp, bus := t.bus, rstIn := t.rstIn, cmdIn := t.cmdIn, xferIn := t.xferIn }) ∧
  State.reset = State.resetWith .nextAfterSync

/-- R231: in a step with `rst` at 1 an exchange in progress ends with no DONE and no transfer, no event is taken
back, no word is accepted, and every register and flag takes its reset value. That the words offered and the
answers still to come stay as they are is the model's reading (log 12). -/
def Obligations.ResetEndsEverythingInOneStep : Prop :=
  ∀ (s : State) (rest : List Bool), s.rstIn = true :: rest →
    step s = .next { s with
      phase := .idle, kind := .cmd, awaiting := false, rem := 0#8, rxbuf := [], txbuf := [],
      txop := 0x00#8, txi := 0#8, cand := [], ovf := false, lastErr := .ok, rstIn := rest }

/-- R36: `stat_sel = 0` selects STAT0. Its fields, with BUSY 1 exactly outside IDLE (R34), and PHASE, KIND, LEN_SRC
and LAST_ERR in the codes of R23, R24, R35 and R201; RXCNT is the number of bytes in RXBUF, in every state that
meets the invariants of R40. Its reset values under both settings of LEN_SRC. -/
def Obligations.Stat0ShowsItsFields : Prop :=
  (∀ s : State,
    s.statWord false = s.stat0 ∧
    s.stat0.extractLsb' 0 1 = BitVec.ofBool s.busy ∧
    (s.busy = true ↔ s.phase ≠ .idle) ∧ s.cmdReady = !s.busy ∧
    s.stat0.extractLsb' 1 2 = (match s.phase with
      | .idle => 0#2
      | .sync => 1#2
      | .frame => 2#2
      | .fill => 3#2) ∧
    s.stat0.extractLsb' 3 1 = (match s.kind with
      | .cmd => 0#1
      | .read => 1#1) ∧
    s.stat0.extractLsb' 4 1 = BitVec.ofBool s.awaiting ∧
    s.stat0.extractLsb' 5 1 = BitVec.ofBool s.ovf ∧
    s.stat0.extractLsb' 6 1 = (match s.lenSrc with
      | .nextAfterSync => 0#1
      | .syncReply => 1#1) ∧
    s.stat0.extractLsb' 7 1 = 0#1 ∧
    s.stat0.extractLsb' 8 4 = (match s.lastErr with
      | .ok => 0#4
      | .errIllegal => 1#4
      | .errBadcmd => 2#4
      | .errTxfull => 3#4
      | .errTransport => 4#4
      | .errPxovf => 5#4) ∧
    s.stat0.extractLsb' 12 4 = 0#4 ∧
    s.stat0.extractLsb' 16 8 = s.rem ∧
    s.stat0.extractLsb' 24 8 = s.rxcnt ∧
    (s.Inv → (s.stat0.extractLsb' 24 8).toNat = s.rxbuf.length)) ∧
  (State.resetWith .nextAfterSync).stat0 = 0x00000000#32 ∧
  (State.resetWith .syncReply).stat0 = 0x00000040#32

/-- R37: `stat_sel = 1` selects STAT1. Its fields; TXCNT and CCNT are the numbers of bytes in TXBUF and CAND, in
every state that meets the invariants of R40. Its reset value. -/
def Obligations.Stat1ShowsItsFields : Prop :=
  (∀ s : State,
    s.statWord true = s.stat1 ∧
    s.stat1.extractLsb' 0 8 = s.txcnt ∧ s.stat1.extractLsb' 8 8 = s.txi ∧
    s.stat1.extractLsb' 16 8 = s.ccnt ∧ s.stat1.extractLsb' 24 8 = s.txop ∧
    (s.Inv → (s.stat1.extractLsb' 0 8).toNat = s.txbuf.length ∧
      (s.stat1.extractLsb' 16 8).toNat = s.cand.length)) ∧
  ∀ src : LenSrc, (State.resetWith src).stat1 = 0x00000000#32

/-! ### Encodings -/

/-- Decoding what the encoder writes gives the instruction back, with every operand at every value, command
words and frame opcodes alike. -/
def Obligations.DecodeOfEncodeIsIdentity : Prop :=
  ∀ i : Instr, i.wellFormed = true → decode (encode i) = .ok i

/-- A code that decodes is the one the encoder writes: no two codes stand for one instruction. -/
def Obligations.NoCodeHasAnAlias : Prop :=
  ∀ (code : Code) (i : Instr), decode code = .ok i → encode i = code

/-- R73, R74: a command word decodes to an operation exactly when none of the three conditions makes it
illegal: OP 0x0 or 0x9 to 0xF; RSV not 0; ARG not 0 with TXCLR, READ, PXSTART or PXEND. -/
def Obligations.WordDecodesUnlessIllegal : Prop :=
  ∀ cw : Word, (∃ i, decodeWord cw = .ok i) ↔
    ¬ ((cw.extractLsb' 12 4 = 0x0#4 ∨ 9 ≤ (cw.extractLsb' 12 4).toNat) ∨
      cw.extractLsb' 8 4 ≠ 0#4 ∨
      (cw.extractLsb' 12 4 ∈ [0x2#4, 0x5#4, 0x6#4, 0x8#4] ∧ cw.extractLsb' 0 8 ≠ 0#8))

/-- R90, R170: exactly six bytes are command opcodes, each with its name. -/
def Obligations.OpcodesAreTheSix : Prop :=
  decodeOpcode 0x07#8 = .ok .reset ∧ decodeOpcode 0x01#8 = .ok .getState ∧
  decodeOpcode 0x02#8 = .ok .getVersion ∧ decodeOpcode 0x03#8 = .ok .getPacket ∧
  decodeOpcode 0x04#8 = .ok .sendPacket ∧ decodeOpcode 0x08#8 = .ok .setLed ∧
  ∀ c : Byte, c ∉ [0x01#8, 0x02#8, 0x03#8, 0x04#8, 0x07#8, 0x08#8] →
    ∀ i, decodeOpcode c ≠ .ok i

/-- A few words written out from R70 and R72, R91's examples among them, decode to what they stand for. -/
def Obligations.WrittenWordsDecode : Prop :=
  decodeWord 0x4001#16 = .ok (.send 0x01#8) ∧ decodeWord 0x5000#16 = .ok .read ∧
  decodeWord 0x3008#16 = .ok (.txpush 8#8) ∧ decodeWord 0x70AA#16 = .ok (.pxbyte 0xAA#8) ∧
  decodeWord 0x1001#16 = .ok (.brev 0x01#8) ∧ decodeWord 0x2000#16 = .ok .txclr ∧
  decodeWord 0x6000#16 = .ok .pxstart ∧ decodeWord 0x8000#16 = .ok .pxend ∧
  decodeOpcode 0x07#8 = .ok .reset

/-- R92: what FRAME and EXTRACT expand to, and that a FRAME of more than 254 bytes is refused. -/
def Obligations.PseudoInstructionsExpand : Prop :=
  ∀ (op : Byte) (bytes : List Byte),
    (bytes.length ≤ 254 → (Pseudo.frame op bytes).expand = some (0x2000#16 ::
      (bytes.map (fun b => 0x3000#16 ||| b.setWidth 16) ++ [0x4000#16 ||| op.setWidth 16]))) ∧
    (254 < bytes.length → (Pseudo.frame op bytes).expand = none) ∧
    (Pseudo.extract bytes).expand = some (0x6000#16 ::
      (bytes.map (fun b => 0x7000#16 ||| b.setWidth 16) ++ [0x8000#16]))

/-! ### Whole exchanges and invariants -/

/-- R235, R92: the words of a FRAME, offered to an idle core, load exactly that payload and start the exchange
that carries it, whatever payload was held before. -/
def Obligations.FrameWordsLoadThePayload : Prop :=
  ∀ (op : Byte) (payload : List Byte) (words rest : List Word) (s : State),
    isCommandOpcode op = true → expandFrame op payload = some words →
    s.phase = .idle → s.rstIn = [] → s.cmdIn = words ++ rest →
    runSteps (payload.length + 2) s = .next { s with
      txbuf := payload, txop := op, kind := .cmd, awaiting := false, rem := 0#8, rxbuf := [],
      txi := 0#8, phase := .sync, lastErr := .ok, cmdIn := rest,
      rsp := s.rsp ++ .done 0x2#4 .ok [] :: List.replicate payload.length (.done 0x3#4 .ok []) }

/-- R134: a SEND under NEXT_AFTER_SYNC whose transfers all answer. With payload length n and length byte L, the
core makes max(n + 3, L + 2) transfers of the wire bytes R134 lists, keeps the first L replies after the
length, and answers DONE(0x4, OK, []). -/
def Obligations.SendExchangeNextAfterSync : Prop :=
  ∀ (s : State) (c r₀ len : Byte) (data : List Byte) (rest : List Word) (more : List Reply),
    s.phase = .idle → s.rstIn = [] → s.lenSrc = .nextAfterSync → s.txbuf.length ≤ 254 →
    isCommandOpcode c = true → s.cmdIn = (0x4000#16 ||| c.setWidth 16) :: rest →
    s.xferIn = answers (r₀ :: len :: data) ++ more →
    data.length + 2 = max (s.txbuf.length + 3) (len.toNat + 2) →
    let tx := sendWire .nextAfterSync c s.txbuf len.toNat
    tx.length = data.length + 2 ∧
    runSteps (data.length + 3) s = .next { s with
      phase := .idle, kind := .cmd, awaiting := false, rem := 0#8, txop := c, txbuf := [],
      txi := BitVec.ofNat 8 (s.txbuf.length + 1), rxbuf := data.take len.toNat,
      lastErr := .ok, rsp := s.rsp ++ [.done 0x4#4 .ok []],
      bus := s.bus ++ transfersOf tx (r₀ :: len :: data), cmdIn := rest, xferIn := more }

/-- R134: a SEND under SYNC_REPLY whose transfers all answer: the sync reply is the length L, and the core
makes max(n + 3, L + 1) transfers. -/
def Obligations.SendExchangeSyncReply : Prop :=
  ∀ (s : State) (c len : Byte) (data : List Byte) (rest : List Word) (more : List Reply),
    s.phase = .idle → s.rstIn = [] → s.lenSrc = .syncReply → s.txbuf.length ≤ 254 →
    isCommandOpcode c = true → s.cmdIn = (0x4000#16 ||| c.setWidth 16) :: rest →
    s.xferIn = answers (len :: data) ++ more →
    data.length + 1 = max (s.txbuf.length + 3) (len.toNat + 1) →
    let tx := sendWire .syncReply c s.txbuf len.toNat
    tx.length = data.length + 1 ∧
    runSteps (data.length + 2) s = .next { s with
      phase := .idle, kind := .cmd, awaiting := false, rem := 0#8, txop := c, txbuf := [],
      txi := BitVec.ofNat 8 (s.txbuf.length + 1), rxbuf := data.take len.toNat,
      lastErr := .ok, rsp := s.rsp ++ [.done 0x4#4 .ok []],
      bus := s.bus ++ transfersOf tx (len :: data), cmdIn := rest, xferIn := more }

/-- R134: a READ whose transfers all answer, under NEXT_AFTER_SYNC (L + 2 transfers) and under SYNC_REPLY
(L + 1 transfers): it answers the L data bytes and leaves the ReceiveBuffer empty. -/
def Obligations.ReadExchangeReturnsTheResponse : Prop :=
  ∀ (s : State) (r₀ len : Byte) (data : List Byte) (rest : List Word) (more : List Reply),
    s.phase = .idle → s.rstIn = [] → s.cmdIn = 0x5000#16 :: rest → data.length = len.toNat →
    (s.lenSrc = .nextAfterSync → s.xferIn = answers (r₀ :: len :: data) ++ more →
      (readWire .nextAfterSync len.toNat).length = len.toNat + 2 ∧
      runSteps (len.toNat + 3) s = .next { s with
        phase := .idle, kind := .read, awaiting := false, rem := 0#8, rxbuf := [], txi := 0#8,
        lastErr := .ok, rsp := s.rsp ++ [.done 0x5#4 .ok data],
        bus := s.bus ++ transfersOf (readWire .nextAfterSync len.toNat) (r₀ :: len :: data),
        cmdIn := rest, xferIn := more }) ∧
    (s.lenSrc = .syncReply → s.xferIn = answers (len :: data) ++ more →
      (readWire .syncReply len.toNat).length = len.toNat + 1 ∧
      runSteps (len.toNat + 2) s = .next { s with
        phase := .idle, kind := .read, awaiting := false, rem := 0#8, rxbuf := [], txi := 0#8,
        lastErr := .ok, rsp := s.rsp ++ [.done 0x5#4 .ok data],
        bus := s.bus ++ transfersOf (readWire .syncReply len.toNat) (len :: data),
        cmdIn := rest, xferIn := more })

/-- R130: every exchange whose transfers all answer, be it with a failure, ends within 257 transfers: from its
sync transfer, in a state that meets the invariants. -/
def Obligations.ExchangesEndWithin257Transfers : Prop :=
  ∀ s : State, s.Inv → s.phase = .sync → s.rstIn = [] → 257 ≤ s.xferIn.length →
    ∃ (k : Nat) (t : State), k ≤ 257 ∧ runSteps k s = .next t ∧
      t.phase = .idle ∧ t.bus.length = s.bus.length + k ∧ doneCount t.rsp = doneCount s.rsp + 1

/-- R39, R40: the reset state meets the invariants, under both settings of LEN_SRC. -/
def Obligations.ResetMeetsTheInvariants : Prop := ∀ src : LenSrc, (State.resetWith src).Inv

/-- R40: every step keeps the invariants, from every state that meets them. The clause TXI ≤ TXCNT + 1 holds
while BUSY, and in IDLE wherever TXI is 0: after a READ and before any SEND. A SEND that ended with a payload leaves
TXI above TXCNT + 1, with TXCNT cleared (R132, R133; log 10). -/
def Obligations.EveryStepKeepsTheInvariants : Prop :=
  ∀ s t : State, s.Inv → step s = .next t → t.Inv

/-- R200, R130: from a state that meets the invariants a step answers a next state, or the core is BUSY with a
transport that never answers and no reset to come. No error stops the core. That this hang is the named fault
`transportSilent` is the model's choice (log 2). -/
def Obligations.OnlyASilentTransportStopsTheCore : Prop := ∀ s : State, s.Inv → s.StepsOrHangs
end

