-- ==== Sys2Proof/Laws/Encoding.lean ====
section
/-! SUPPORT. The fields of a word the encoder builds, and its decoding by OP and ARG. -/

namespace Sys2Proof

open Machine

@[simp] theorem Machine.cwOp_makeWord (op : Nibble) (arg : Byte) : cwOp (makeWord op arg) = op := by
  unfold cwOp makeWord
  apply BitVec.eq_of_getLsbD_eq
  intro i hi
  simp only [BitVec.getLsbD_append, BitVec.getLsbD_extractLsb', hi]
  interval_cases i <;> simp

@[simp] theorem Machine.cwRsv_makeWord (op : Nibble) (arg : Byte) :
    cwRsv (makeWord op arg) = 0#4 := by
  unfold cwRsv makeWord
  apply BitVec.eq_of_getLsbD_eq
  intro i hi
  simp only [BitVec.getLsbD_append, BitVec.getLsbD_extractLsb', hi]
  interval_cases i <;> simp

@[simp] theorem Machine.cwArg_makeWord (op : Nibble) (arg : Byte) :
    cwArg (makeWord op arg) = arg := by
  unfold cwArg makeWord
  apply BitVec.eq_of_getLsbD_eq
  intro i hi
  simp only [BitVec.getLsbD_append, BitVec.getLsbD_extractLsb', hi]
  interval_cases i <;> simp

/-- A word with OP in its top bits and nothing else, with ARG put in, is `makeWord`. -/
theorem Machine.or_setWidth_eq_makeWord (op : Nibble) (arg : Byte) :
    (op ++ 0#12 : Word) ||| arg.setWidth 16 = makeWord op arg := by
  unfold makeWord
  apply BitVec.eq_of_getLsbD_eq
  intro i hi
  simp only [BitVec.getLsbD_or, BitVec.getLsbD_append, BitVec.getLsbD_setWidth]
  interval_cases i <;> simp

/-- A word with RSV = 0 is its OP and ARG. -/
theorem Machine.makeWord_fields {cw : Word} (h : cwRsv cw = 0#4) :
    makeWord (cwOp cw) (cwArg cw) = cw := by
  unfold makeWord cwOp cwArg
  unfold cwRsv at h
  rw [← h]
  apply BitVec.eq_of_getLsbD_eq
  intro i hi
  simp only [BitVec.getLsbD_append, BitVec.getLsbD_extractLsb']
  interval_cases i <;> simp

/-- The decoder on a word that `makeWord` builds. -/
@[simp] theorem decodeWord_makeWord (op : Nibble) (arg : Byte) :
    decodeWord (makeWord op arg) = decodeOp op arg := by
  simp [decodeWord]

/-- An operation without an operand decodes only from ARG = 0 (R73). -/
theorem decodeBare_ok {op : Nibble} {arg : Byte} {i j : Instr} (h : decodeBare op arg i = .ok j) :
    arg = 0#8 ∧ i = j := by
  unfold decodeBare at h
  split at h
  · cases h; exact ⟨by assumption, rfl⟩
  · cases h

end Sys2Proof
end

