-- ==== Sys2Proof/Laws/State.lean ====
section
/-! SUPPORT. One lemma per field per state update, each true by unfolding the update once. -/

namespace Sys2Proof.Machine

/-! ### `emitDone` -/

@[simp] theorem emitDone_phase (op : Nibble) (st : Status) (data : List Byte) (s : State) :
    (emitDone op st data s).phase = s.phase := rfl
@[simp] theorem emitDone_kind (op : Nibble) (st : Status) (data : List Byte) (s : State) :
    (emitDone op st data s).kind = s.kind := rfl
@[simp] theorem emitDone_awaiting (op : Nibble) (st : Status) (data : List Byte) (s : State) :
    (emitDone op st data s).awaiting = s.awaiting := rfl
@[simp] theorem emitDone_rem (op : Nibble) (st : Status) (data : List Byte) (s : State) :
    (emitDone op st data s).rem = s.rem := rfl
@[simp] theorem emitDone_rxbuf (op : Nibble) (st : Status) (data : List Byte) (s : State) :
    (emitDone op st data s).rxbuf = s.rxbuf := rfl
@[simp] theorem emitDone_txbuf (op : Nibble) (st : Status) (data : List Byte) (s : State) :
    (emitDone op st data s).txbuf = s.txbuf := rfl
@[simp] theorem emitDone_txop (op : Nibble) (st : Status) (data : List Byte) (s : State) :
    (emitDone op st data s).txop = s.txop := rfl
@[simp] theorem emitDone_txi (op : Nibble) (st : Status) (data : List Byte) (s : State) :
    (emitDone op st data s).txi = s.txi := rfl
@[simp] theorem emitDone_cand (op : Nibble) (st : Status) (data : List Byte) (s : State) :
    (emitDone op st data s).cand = s.cand := rfl
@[simp] theorem emitDone_ovf (op : Nibble) (st : Status) (data : List Byte) (s : State) :
    (emitDone op st data s).ovf = s.ovf := rfl
@[simp] theorem emitDone_lastErr (op : Nibble) (st : Status) (data : List Byte) (s : State) :
    (emitDone op st data s).lastErr = st := rfl
@[simp] theorem emitDone_lenSrc (op : Nibble) (st : Status) (data : List Byte) (s : State) :
    (emitDone op st data s).lenSrc = s.lenSrc := rfl
@[simp] theorem emitDone_rsp (op : Nibble) (st : Status) (data : List Byte) (s : State) :
    (emitDone op st data s).rsp = s.rsp ++ [.done op st data] := rfl
@[simp] theorem emitDone_bus (op : Nibble) (st : Status) (data : List Byte) (s : State) :
    (emitDone op st data s).bus = s.bus := rfl
@[simp] theorem emitDone_rstIn (op : Nibble) (st : Status) (data : List Byte) (s : State) :
    (emitDone op st data s).rstIn = s.rstIn := rfl
@[simp] theorem emitDone_cmdIn (op : Nibble) (st : Status) (data : List Byte) (s : State) :
    (emitDone op st data s).cmdIn = s.cmdIn := rfl
@[simp] theorem emitDone_xferIn (op : Nibble) (st : Status) (data : List Byte) (s : State) :
    (emitDone op st data s).xferIn = s.xferIn := rfl

/-! ### `emitPkt` -/

@[simp] theorem emitPkt_phase (data : List Byte) (s : State) :
    (emitPkt data s).phase = s.phase := rfl
@[simp] theorem emitPkt_kind (data : List Byte) (s : State) :
    (emitPkt data s).kind = s.kind := rfl
@[simp] theorem emitPkt_awaiting (data : List Byte) (s : State) :
    (emitPkt data s).awaiting = s.awaiting := rfl
@[simp] theorem emitPkt_rem (data : List Byte) (s : State) :
    (emitPkt data s).rem = s.rem := rfl
@[simp] theorem emitPkt_rxbuf (data : List Byte) (s : State) :
    (emitPkt data s).rxbuf = s.rxbuf := rfl
@[simp] theorem emitPkt_txbuf (data : List Byte) (s : State) :
    (emitPkt data s).txbuf = s.txbuf := rfl
@[simp] theorem emitPkt_txop (data : List Byte) (s : State) :
    (emitPkt data s).txop = s.txop := rfl
@[simp] theorem emitPkt_txi (data : List Byte) (s : State) :
    (emitPkt data s).txi = s.txi := rfl
@[simp] theorem emitPkt_cand (data : List Byte) (s : State) :
    (emitPkt data s).cand = s.cand := rfl
@[simp] theorem emitPkt_ovf (data : List Byte) (s : State) :
    (emitPkt data s).ovf = s.ovf := rfl
@[simp] theorem emitPkt_lastErr (data : List Byte) (s : State) :
    (emitPkt data s).lastErr = s.lastErr := rfl
@[simp] theorem emitPkt_lenSrc (data : List Byte) (s : State) :
    (emitPkt data s).lenSrc = s.lenSrc := rfl
@[simp] theorem emitPkt_rsp (data : List Byte) (s : State) :
    (emitPkt data s).rsp = s.rsp ++ [.pkt data] := rfl
@[simp] theorem emitPkt_bus (data : List Byte) (s : State) :
    (emitPkt data s).bus = s.bus := rfl
@[simp] theorem emitPkt_rstIn (data : List Byte) (s : State) :
    (emitPkt data s).rstIn = s.rstIn := rfl
@[simp] theorem emitPkt_cmdIn (data : List Byte) (s : State) :
    (emitPkt data s).cmdIn = s.cmdIn := rfl
@[simp] theorem emitPkt_xferIn (data : List Byte) (s : State) :
    (emitPkt data s).xferIn = s.xferIn := rfl

/-! ### `clearPayload` -/

@[simp] theorem clearPayload_phase (s : State) :
    (clearPayload s).phase = s.phase := rfl
@[simp] theorem clearPayload_kind (s : State) :
    (clearPayload s).kind = s.kind := rfl
@[simp] theorem clearPayload_awaiting (s : State) :
    (clearPayload s).awaiting = s.awaiting := rfl
@[simp] theorem clearPayload_rem (s : State) :
    (clearPayload s).rem = s.rem := rfl
@[simp] theorem clearPayload_rxbuf (s : State) :
    (clearPayload s).rxbuf = s.rxbuf := rfl
@[simp] theorem clearPayload_txbuf (s : State) :
    (clearPayload s).txbuf = [] := rfl
@[simp] theorem clearPayload_txop (s : State) :
    (clearPayload s).txop = s.txop := rfl
@[simp] theorem clearPayload_txi (s : State) :
    (clearPayload s).txi = s.txi := rfl
@[simp] theorem clearPayload_cand (s : State) :
    (clearPayload s).cand = s.cand := rfl
@[simp] theorem clearPayload_ovf (s : State) :
    (clearPayload s).ovf = s.ovf := rfl
@[simp] theorem clearPayload_lastErr (s : State) :
    (clearPayload s).lastErr = s.lastErr := rfl
@[simp] theorem clearPayload_lenSrc (s : State) :
    (clearPayload s).lenSrc = s.lenSrc := rfl
@[simp] theorem clearPayload_rsp (s : State) :
    (clearPayload s).rsp = s.rsp := rfl
@[simp] theorem clearPayload_bus (s : State) :
    (clearPayload s).bus = s.bus := rfl
@[simp] theorem clearPayload_rstIn (s : State) :
    (clearPayload s).rstIn = s.rstIn := rfl
@[simp] theorem clearPayload_cmdIn (s : State) :
    (clearPayload s).cmdIn = s.cmdIn := rfl
@[simp] theorem clearPayload_xferIn (s : State) :
    (clearPayload s).xferIn = s.xferIn := rfl

/-! ### `pushPayload` -/

@[simp] theorem pushPayload_phase (p : Byte) (s : State) :
    (pushPayload p s).phase = s.phase := rfl
@[simp] theorem pushPayload_kind (p : Byte) (s : State) :
    (pushPayload p s).kind = s.kind := rfl
@[simp] theorem pushPayload_awaiting (p : Byte) (s : State) :
    (pushPayload p s).awaiting = s.awaiting := rfl
@[simp] theorem pushPayload_rem (p : Byte) (s : State) :
    (pushPayload p s).rem = s.rem := rfl
@[simp] theorem pushPayload_rxbuf (p : Byte) (s : State) :
    (pushPayload p s).rxbuf = s.rxbuf := rfl
@[simp] theorem pushPayload_txbuf (p : Byte) (s : State) :
    (pushPayload p s).txbuf = s.txbuf ++ [p] := rfl
@[simp] theorem pushPayload_txop (p : Byte) (s : State) :
    (pushPayload p s).txop = s.txop := rfl
@[simp] theorem pushPayload_txi (p : Byte) (s : State) :
    (pushPayload p s).txi = s.txi := rfl
@[simp] theorem pushPayload_cand (p : Byte) (s : State) :
    (pushPayload p s).cand = s.cand := rfl
@[simp] theorem pushPayload_ovf (p : Byte) (s : State) :
    (pushPayload p s).ovf = s.ovf := rfl
@[simp] theorem pushPayload_lastErr (p : Byte) (s : State) :
    (pushPayload p s).lastErr = s.lastErr := rfl
@[simp] theorem pushPayload_lenSrc (p : Byte) (s : State) :
    (pushPayload p s).lenSrc = s.lenSrc := rfl
@[simp] theorem pushPayload_rsp (p : Byte) (s : State) :
    (pushPayload p s).rsp = s.rsp := rfl
@[simp] theorem pushPayload_bus (p : Byte) (s : State) :
    (pushPayload p s).bus = s.bus := rfl
@[simp] theorem pushPayload_rstIn (p : Byte) (s : State) :
    (pushPayload p s).rstIn = s.rstIn := rfl
@[simp] theorem pushPayload_cmdIn (p : Byte) (s : State) :
    (pushPayload p s).cmdIn = s.cmdIn := rfl
@[simp] theorem pushPayload_xferIn (p : Byte) (s : State) :
    (pushPayload p s).xferIn = s.xferIn := rfl

/-! ### `clearCandidate` -/

@[simp] theorem clearCandidate_phase (s : State) :
    (clearCandidate s).phase = s.phase := rfl
@[simp] theorem clearCandidate_kind (s : State) :
    (clearCandidate s).kind = s.kind := rfl
@[simp] theorem clearCandidate_awaiting (s : State) :
    (clearCandidate s).awaiting = s.awaiting := rfl
@[simp] theorem clearCandidate_rem (s : State) :
    (clearCandidate s).rem = s.rem := rfl
@[simp] theorem clearCandidate_rxbuf (s : State) :
    (clearCandidate s).rxbuf = s.rxbuf := rfl
@[simp] theorem clearCandidate_txbuf (s : State) :
    (clearCandidate s).txbuf = s.txbuf := rfl
@[simp] theorem clearCandidate_txop (s : State) :
    (clearCandidate s).txop = s.txop := rfl
@[simp] theorem clearCandidate_txi (s : State) :
    (clearCandidate s).txi = s.txi := rfl
@[simp] theorem clearCandidate_cand (s : State) :
    (clearCandidate s).cand = [] := rfl
@[simp] theorem clearCandidate_ovf (s : State) :
    (clearCandidate s).ovf = false := rfl
@[simp] theorem clearCandidate_lastErr (s : State) :
    (clearCandidate s).lastErr = s.lastErr := rfl
@[simp] theorem clearCandidate_lenSrc (s : State) :
    (clearCandidate s).lenSrc = s.lenSrc := rfl
@[simp] theorem clearCandidate_rsp (s : State) :
    (clearCandidate s).rsp = s.rsp := rfl
@[simp] theorem clearCandidate_bus (s : State) :
    (clearCandidate s).bus = s.bus := rfl
@[simp] theorem clearCandidate_rstIn (s : State) :
    (clearCandidate s).rstIn = s.rstIn := rfl
@[simp] theorem clearCandidate_cmdIn (s : State) :
    (clearCandidate s).cmdIn = s.cmdIn := rfl
@[simp] theorem clearCandidate_xferIn (s : State) :
    (clearCandidate s).xferIn = s.xferIn := rfl

/-! ### `pushCandidate` -/

@[simp] theorem pushCandidate_phase (b : Byte) (s : State) :
    (pushCandidate b s).phase = s.phase := rfl
@[simp] theorem pushCandidate_kind (b : Byte) (s : State) :
    (pushCandidate b s).kind = s.kind := rfl
@[simp] theorem pushCandidate_awaiting (b : Byte) (s : State) :
    (pushCandidate b s).awaiting = s.awaiting := rfl
@[simp] theorem pushCandidate_rem (b : Byte) (s : State) :
    (pushCandidate b s).rem = s.rem := rfl
@[simp] theorem pushCandidate_rxbuf (b : Byte) (s : State) :
    (pushCandidate b s).rxbuf = s.rxbuf := rfl
@[simp] theorem pushCandidate_txbuf (b : Byte) (s : State) :
    (pushCandidate b s).txbuf = s.txbuf := rfl
@[simp] theorem pushCandidate_txop (b : Byte) (s : State) :
    (pushCandidate b s).txop = s.txop := rfl
@[simp] theorem pushCandidate_txi (b : Byte) (s : State) :
    (pushCandidate b s).txi = s.txi := rfl
@[simp] theorem pushCandidate_cand (b : Byte) (s : State) :
    (pushCandidate b s).cand = s.cand ++ [b] := rfl
@[simp] theorem pushCandidate_ovf (b : Byte) (s : State) :
    (pushCandidate b s).ovf = s.ovf := rfl
@[simp] theorem pushCandidate_lastErr (b : Byte) (s : State) :
    (pushCandidate b s).lastErr = s.lastErr := rfl
@[simp] theorem pushCandidate_lenSrc (b : Byte) (s : State) :
    (pushCandidate b s).lenSrc = s.lenSrc := rfl
@[simp] theorem pushCandidate_rsp (b : Byte) (s : State) :
    (pushCandidate b s).rsp = s.rsp := rfl
@[simp] theorem pushCandidate_bus (b : Byte) (s : State) :
    (pushCandidate b s).bus = s.bus := rfl
@[simp] theorem pushCandidate_rstIn (b : Byte) (s : State) :
    (pushCandidate b s).rstIn = s.rstIn := rfl
@[simp] theorem pushCandidate_cmdIn (b : Byte) (s : State) :
    (pushCandidate b s).cmdIn = s.cmdIn := rfl
@[simp] theorem pushCandidate_xferIn (b : Byte) (s : State) :
    (pushCandidate b s).xferIn = s.xferIn := rfl

/-! ### `startExchange` -/

@[simp] theorem startExchange_phase (k : Kind) (s : State) :
    (startExchange k s).phase = .sync := rfl
@[simp] theorem startExchange_kind (k : Kind) (s : State) :
    (startExchange k s).kind = k := rfl
@[simp] theorem startExchange_awaiting (k : Kind) (s : State) :
    (startExchange k s).awaiting = false := rfl
@[simp] theorem startExchange_rem (k : Kind) (s : State) :
    (startExchange k s).rem = 0#8 := rfl
@[simp] theorem startExchange_rxbuf (k : Kind) (s : State) :
    (startExchange k s).rxbuf = [] := rfl
@[simp] theorem startExchange_txbuf (k : Kind) (s : State) :
    (startExchange k s).txbuf = s.txbuf := rfl
@[simp] theorem startExchange_txop (k : Kind) (s : State) :
    (startExchange k s).txop = s.txop := rfl
@[simp] theorem startExchange_txi (k : Kind) (s : State) :
    (startExchange k s).txi = 0#8 := rfl
@[simp] theorem startExchange_cand (k : Kind) (s : State) :
    (startExchange k s).cand = s.cand := rfl
@[simp] theorem startExchange_ovf (k : Kind) (s : State) :
    (startExchange k s).ovf = s.ovf := rfl
@[simp] theorem startExchange_lastErr (k : Kind) (s : State) :
    (startExchange k s).lastErr = s.lastErr := rfl
@[simp] theorem startExchange_lenSrc (k : Kind) (s : State) :
    (startExchange k s).lenSrc = s.lenSrc := rfl
@[simp] theorem startExchange_rsp (k : Kind) (s : State) :
    (startExchange k s).rsp = s.rsp := rfl
@[simp] theorem startExchange_bus (k : Kind) (s : State) :
    (startExchange k s).bus = s.bus := rfl
@[simp] theorem startExchange_rstIn (k : Kind) (s : State) :
    (startExchange k s).rstIn = s.rstIn := rfl
@[simp] theorem startExchange_cmdIn (k : Kind) (s : State) :
    (startExchange k s).cmdIn = s.cmdIn := rfl
@[simp] theorem startExchange_xferIn (k : Kind) (s : State) :
    (startExchange k s).xferIn = s.xferIn := rfl

/-! ### `logTransfer` -/

@[simp] theorem logTransfer_phase (t : Byte) (r : Reply) (rest : List Reply) (s : State) :
    (logTransfer t r rest s).phase = s.phase := rfl
@[simp] theorem logTransfer_kind (t : Byte) (r : Reply) (rest : List Reply) (s : State) :
    (logTransfer t r rest s).kind = s.kind := rfl
@[simp] theorem logTransfer_awaiting (t : Byte) (r : Reply) (rest : List Reply) (s : State) :
    (logTransfer t r rest s).awaiting = s.awaiting := rfl
@[simp] theorem logTransfer_rem (t : Byte) (r : Reply) (rest : List Reply) (s : State) :
    (logTransfer t r rest s).rem = s.rem := rfl
@[simp] theorem logTransfer_rxbuf (t : Byte) (r : Reply) (rest : List Reply) (s : State) :
    (logTransfer t r rest s).rxbuf = s.rxbuf := rfl
@[simp] theorem logTransfer_txbuf (t : Byte) (r : Reply) (rest : List Reply) (s : State) :
    (logTransfer t r rest s).txbuf = s.txbuf := rfl
@[simp] theorem logTransfer_txop (t : Byte) (r : Reply) (rest : List Reply) (s : State) :
    (logTransfer t r rest s).txop = s.txop := rfl
@[simp] theorem logTransfer_txi (t : Byte) (r : Reply) (rest : List Reply) (s : State) :
    (logTransfer t r rest s).txi = s.txi := rfl
@[simp] theorem logTransfer_cand (t : Byte) (r : Reply) (rest : List Reply) (s : State) :
    (logTransfer t r rest s).cand = s.cand := rfl
@[simp] theorem logTransfer_ovf (t : Byte) (r : Reply) (rest : List Reply) (s : State) :
    (logTransfer t r rest s).ovf = s.ovf := rfl
@[simp] theorem logTransfer_lastErr (t : Byte) (r : Reply) (rest : List Reply) (s : State) :
    (logTransfer t r rest s).lastErr = s.lastErr := rfl
@[simp] theorem logTransfer_lenSrc (t : Byte) (r : Reply) (rest : List Reply) (s : State) :
    (logTransfer t r rest s).lenSrc = s.lenSrc := rfl
@[simp] theorem logTransfer_rsp (t : Byte) (r : Reply) (rest : List Reply) (s : State) :
    (logTransfer t r rest s).rsp = s.rsp := rfl
@[simp] theorem logTransfer_bus (t : Byte) (r : Reply) (rest : List Reply) (s : State) :
    (logTransfer t r rest s).bus = s.bus ++ [⟨t, r⟩] := rfl
@[simp] theorem logTransfer_rstIn (t : Byte) (r : Reply) (rest : List Reply) (s : State) :
    (logTransfer t r rest s).rstIn = s.rstIn := rfl
@[simp] theorem logTransfer_cmdIn (t : Byte) (r : Reply) (rest : List Reply) (s : State) :
    (logTransfer t r rest s).cmdIn = s.cmdIn := rfl
@[simp] theorem logTransfer_xferIn (t : Byte) (r : Reply) (rest : List Reply) (s : State) :
    (logTransfer t r rest s).xferIn = rest := rfl

/-! ### `takeOffer` -/

@[simp] theorem takeOffer_phase (rest : List Word) (s : State) :
    (takeOffer rest s).phase = s.phase := rfl
@[simp] theorem takeOffer_kind (rest : List Word) (s : State) :
    (takeOffer rest s).kind = s.kind := rfl
@[simp] theorem takeOffer_awaiting (rest : List Word) (s : State) :
    (takeOffer rest s).awaiting = s.awaiting := rfl
@[simp] theorem takeOffer_rem (rest : List Word) (s : State) :
    (takeOffer rest s).rem = s.rem := rfl
@[simp] theorem takeOffer_rxbuf (rest : List Word) (s : State) :
    (takeOffer rest s).rxbuf = s.rxbuf := rfl
@[simp] theorem takeOffer_txbuf (rest : List Word) (s : State) :
    (takeOffer rest s).txbuf = s.txbuf := rfl
@[simp] theorem takeOffer_txop (rest : List Word) (s : State) :
    (takeOffer rest s).txop = s.txop := rfl
@[simp] theorem takeOffer_txi (rest : List Word) (s : State) :
    (takeOffer rest s).txi = s.txi := rfl
@[simp] theorem takeOffer_cand (rest : List Word) (s : State) :
    (takeOffer rest s).cand = s.cand := rfl
@[simp] theorem takeOffer_ovf (rest : List Word) (s : State) :
    (takeOffer rest s).ovf = s.ovf := rfl
@[simp] theorem takeOffer_lastErr (rest : List Word) (s : State) :
    (takeOffer rest s).lastErr = s.lastErr := rfl
@[simp] theorem takeOffer_lenSrc (rest : List Word) (s : State) :
    (takeOffer rest s).lenSrc = s.lenSrc := rfl
@[simp] theorem takeOffer_rsp (rest : List Word) (s : State) :
    (takeOffer rest s).rsp = s.rsp := rfl
@[simp] theorem takeOffer_bus (rest : List Word) (s : State) :
    (takeOffer rest s).bus = s.bus := rfl
@[simp] theorem takeOffer_rstIn (rest : List Word) (s : State) :
    (takeOffer rest s).rstIn = s.rstIn := rfl
@[simp] theorem takeOffer_cmdIn (rest : List Word) (s : State) :
    (takeOffer rest s).cmdIn = rest := rfl
@[simp] theorem takeOffer_xferIn (rest : List Word) (s : State) :
    (takeOffer rest s).xferIn = s.xferIn := rfl

/-! ### `takeReset` -/

@[simp] theorem takeReset_phase (s : State) :
    (takeReset s).phase = .idle := rfl
@[simp] theorem takeReset_kind (s : State) :
    (takeReset s).kind = .cmd := rfl
@[simp] theorem takeReset_awaiting (s : State) :
    (takeReset s).awaiting = false := rfl
@[simp] theorem takeReset_rem (s : State) :
    (takeReset s).rem = 0#8 := rfl
@[simp] theorem takeReset_rxbuf (s : State) :
    (takeReset s).rxbuf = [] := rfl
@[simp] theorem takeReset_txbuf (s : State) :
    (takeReset s).txbuf = [] := rfl
@[simp] theorem takeReset_txop (s : State) :
    (takeReset s).txop = 0x00#8 := rfl
@[simp] theorem takeReset_txi (s : State) :
    (takeReset s).txi = 0#8 := rfl
@[simp] theorem takeReset_cand (s : State) :
    (takeReset s).cand = [] := rfl
@[simp] theorem takeReset_ovf (s : State) :
    (takeReset s).ovf = false := rfl
@[simp] theorem takeReset_lastErr (s : State) :
    (takeReset s).lastErr = .ok := rfl
@[simp] theorem takeReset_lenSrc (s : State) :
    (takeReset s).lenSrc = s.lenSrc := rfl
@[simp] theorem takeReset_rsp (s : State) :
    (takeReset s).rsp = s.rsp := rfl
@[simp] theorem takeReset_bus (s : State) :
    (takeReset s).bus = s.bus := rfl
@[simp] theorem takeReset_rstIn (s : State) :
    (takeReset s).rstIn = s.rstIn := rfl
@[simp] theorem takeReset_cmdIn (s : State) :
    (takeReset s).cmdIn = s.cmdIn := rfl
@[simp] theorem takeReset_xferIn (s : State) :
    (takeReset s).xferIn = s.xferIn := rfl

/-! ### `State.dropRst` -/

@[simp] theorem dropRst_phase (s : State) : s.dropRst.phase = s.phase := rfl
@[simp] theorem dropRst_kind (s : State) : s.dropRst.kind = s.kind := rfl
@[simp] theorem dropRst_awaiting (s : State) : s.dropRst.awaiting = s.awaiting := rfl
@[simp] theorem dropRst_rem (s : State) : s.dropRst.rem = s.rem := rfl
@[simp] theorem dropRst_rxbuf (s : State) : s.dropRst.rxbuf = s.rxbuf := rfl
@[simp] theorem dropRst_txbuf (s : State) : s.dropRst.txbuf = s.txbuf := rfl
@[simp] theorem dropRst_txop (s : State) : s.dropRst.txop = s.txop := rfl
@[simp] theorem dropRst_txi (s : State) : s.dropRst.txi = s.txi := rfl
@[simp] theorem dropRst_cand (s : State) : s.dropRst.cand = s.cand := rfl
@[simp] theorem dropRst_ovf (s : State) : s.dropRst.ovf = s.ovf := rfl
@[simp] theorem dropRst_lastErr (s : State) : s.dropRst.lastErr = s.lastErr := rfl
@[simp] theorem dropRst_lenSrc (s : State) : s.dropRst.lenSrc = s.lenSrc := rfl
@[simp] theorem dropRst_rsp (s : State) : s.dropRst.rsp = s.rsp := rfl
@[simp] theorem dropRst_bus (s : State) : s.dropRst.bus = s.bus := rfl
@[simp] theorem dropRst_rstIn (s : State) : s.dropRst.rstIn = s.rstIn.tail := rfl
@[simp] theorem dropRst_cmdIn (s : State) : s.dropRst.cmdIn = s.cmdIn := rfl
@[simp] theorem dropRst_xferIn (s : State) : s.dropRst.xferIn = s.xferIn := rfl

/-! ### Updates that are others composed -/

@[simp] theorem raiseStatus_eq (op : Nibble) (st : Status) (s : State) :
    raiseStatus op st s = emitDone op st [] s := rfl

@[simp] theorem startSend_eq (c : Byte) (s : State) :
    startSend c s = startExchange .cmd { s with txop := c } := rfl

@[simp] theorem completeSend_eq (s : State) :
    completeSend s = emitDone opSend .ok [] { clearPayload s with phase := .idle } := rfl

@[simp] theorem completeRead_eq (s : State) :
    completeRead s = emitDone opRead .ok s.rxbuf
      { s with rxbuf := [], rem := 0#8, awaiting := false, phase := .idle } := rfl

@[simp] theorem brevOut_eq (a : Byte) : brevOut a = brev8 a := rfl

/-! ### The views -/

@[simp] theorem busy_iff (s : State) : s.busy = true ↔ s.phase ≠ .idle := by
  cases h : s.phase <;> simp [State.busy, h]

@[simp] theorem cmdReady_iff (s : State) : s.cmdReady = true ↔ s.phase = .idle := by
  cases h : s.phase <;> simp [State.cmdReady, State.busy, h]

/-- RXCNT is exact within the capacity of the ReceiveBuffer (R27). -/
theorem rxcnt_toNat {s : State} (h : s.rxbuf.length ≤ 255) : s.rxcnt.toNat = s.rxbuf.length := by
  simp [State.rxcnt]; omega

/-- TXCNT is exact within the capacity of TXBUF (R28). -/
theorem txcnt_toNat {s : State} (h : s.txbuf.length ≤ 254) : s.txcnt.toNat = s.txbuf.length := by
  simp [State.txcnt]; omega

/-- CCNT is exact within the capacity of CAND (R31). -/
theorem ccnt_toNat {s : State} (h : s.cand.length ≤ 255) : s.ccnt.toNat = s.cand.length := by
  simp [State.ccnt]; omega

end Sys2Proof.Machine
end

