-- ==== Sys2Proof/Laws/Ops.lean ====
section
/-! SUPPORT. What each shared operation and the step can do, said once: later proofs cite these instead
of unfolding the operation. -/

namespace Sys2Proof.Machine

/-! ### The exchange's operations -/

/-- Everything rx_accept can do (R128). -/
theorem rxAccept_cases (r : Byte) (s : State) :
    (s.awaiting = true ∧ rxAccept r s = { s with rem := r, awaiting := false }) ∨
    (s.awaiting = false ∧ s.rem ≠ 0#8 ∧
      rxAccept r s = { s with rxbuf := s.rxbuf ++ [r], rem := s.rem - 1#8 }) ∨
    (s.awaiting = false ∧ s.rem = 0#8 ∧ rxAccept r s = s) := by
  cases ha : s.awaiting with
  | true => exact .inl ⟨rfl, by simp [rxAccept, ha]⟩
  | false =>
    by_cases hr : s.rem = 0#8
    · exact .inr (.inr ⟨rfl, hr, by simp [rxAccept, ha, hr]⟩)
    · exact .inr (.inl ⟨rfl, hr, by simp [rxAccept, ha, hr]⟩)

/-- rx_accept writes the ReceiveBuffer only (R42, R128). -/
theorem rxAccept_frame (r : Byte) (s : State) :
    rxAccept r s = { s with
      rem := (rxAccept r s).rem, awaiting := (rxAccept r s).awaiting,
      rxbuf := (rxAccept r s).rxbuf } := by
  obtain ⟨-, h⟩ | ⟨-, -, h⟩ | ⟨-, -, h⟩ := rxAccept_cases r s <;> rw [h]

/-- Everything check_complete can do (R132). -/
theorem checkComplete_cases (s : State) :
    (s.phase = .fill ∧ s.awaiting = false ∧ s.rem = 0#8 ∧ s.kind = .cmd ∧
      checkComplete s = completeSend s) ∨
    (s.phase = .fill ∧ s.awaiting = false ∧ s.rem = 0#8 ∧ s.kind = .read ∧
      checkComplete s = completeRead s) ∨
    (¬ (s.phase = .fill ∧ s.awaiting = false ∧ s.rem = 0#8) ∧ checkComplete s = s) := by
  by_cases h : s.phase = .fill ∧ s.awaiting = false ∧ s.rem = 0#8
  · cases hk : s.kind with
    | cmd => exact .inl ⟨h.1, h.2.1, h.2.2, rfl, by simp [checkComplete, h, hk]⟩
    | read => exact .inr (.inl ⟨h.1, h.2.1, h.2.2, rfl, by simp [checkComplete, h, hk]⟩)
  · exact .inr (.inr ⟨h, by simp [checkComplete, h]⟩)

/-- Everything an abort can do (R133). -/
theorem abortExchange_cases (s : State) :
    (s.kind = .cmd ∧ abortExchange s =
      emitDone opSend .errTransport [] { clearPayload s with phase := .idle }) ∨
    (s.kind = .read ∧ abortExchange s =
      emitDone opRead .errTransport [] { s with phase := .idle }) := by
  cases hk : s.kind with
  | cmd => exact .inl ⟨rfl, by simp [abortExchange, hk]⟩
  | read => exact .inr ⟨rfl, by simp [abortExchange, hk]⟩

/-- Everything a transfer that answers a next state can do (R111). -/
theorem transfer_cases {b : Byte} {onByte : Byte → State → State} {s t : State}
    (h : transfer b onByte s = .next t) :
    (∃ w rest, s.xferIn = .ok w :: rest ∧
      t = onByte (brev8 w) (logTransfer (brev8 b) (.ok w) rest s)) ∨
    (∃ rest, s.xferIn = .fail :: rest ∧
      t = abortExchange (logTransfer (brev8 b) .fail rest s)) := by
  unfold transfer at h
  split at h
  · cases h
  · rename_i rest hx
    injection h with h
    exact .inr ⟨rest, hx, h.symm⟩
  · rename_i w rest hx
    injection h with h
    exact .inl ⟨w, rest, hx, h.symm⟩

/-- A transfer with an answer to take answers a next state. -/
theorem transfer_of_answer (b : Byte) (onByte : Byte → State → State) (s : State) (r : Reply)
    (rest : List Reply) (h : s.xferIn = r :: rest) : ∃ t, transfer b onByte s = .next t := by
  unfold transfer
  rw [h]
  cases r <;> exact ⟨_, rfl⟩

/-- A transfer with no answer to take is stuck (R130). -/
theorem transfer_silent (b : Byte) (onByte : Byte → State → State) (s : State)
    (h : s.xferIn = []) : transfer b onByte s = .fault .transportSilent := by
  unfold transfer
  rw [h]

/-! ### Frames -/

/-- frame_byte(i) is element i of the frame (R85, R125), read without a bound on i. -/
theorem frameByte_cases (s : State) (i : Nat) :
    (i = 0 ∧ frameByte s i = some (BitVec.ofNat 8 (s.txbuf.length + 1))) ∨
    (i = 1 ∧ frameByte s i = some s.txop) ∨
    (∃ j, i = j + 2 ∧ frameByte s i = s.txbuf[j]?) := by
  match i with
  | 0 => exact .inl ⟨rfl, rfl⟩
  | 1 => exact .inr (.inl ⟨rfl, rfl⟩)
  | j + 2 => exact .inr (.inr ⟨j, rfl, rfl⟩)

/-- frame_byte is defined up to TXCNT + 1 (R125). -/
theorem frameByte_defined (s : State) (i : Nat) (h : i ≤ s.txbuf.length + 1) :
    ∃ b, frameByte s i = some b := by
  obtain ⟨-, hb⟩ | ⟨-, hb⟩ | ⟨j, hj, hb⟩ := frameByte_cases s i
  · exact ⟨_, hb⟩
  · exact ⟨_, hb⟩
  · have hlt : j < s.txbuf.length := by omega
    exact ⟨s.txbuf[j], by simp [hb, hlt]⟩

/-! ### Operations on the command port -/

/-- Everything an accepted word can do: decoded and executed, or illegal (R73, R74, R202). -/
theorem acceptWord_cases (cw : Word) (s : State) :
    (∃ i, decodeWord cw = .ok i ∧ acceptWord cw s = exec i s) ∨
    (∃ e, decodeWord cw = .error e ∧
      acceptWord cw s = .next (emitDone (cwOp cw) .errIllegal [] s)) := by
  cases h : decodeWord cw with
  | ok i => exact .inl ⟨i, rfl, by simp [acceptWord, h]⟩
  | error e => exact .inr ⟨e, rfl, by simp [acceptWord, h, execIllegal]⟩

/-- Everything PXBYTE can do (R152). -/
theorem execPxbyte_cases (b : Byte) (s : State) :
    (b = delim ∧ s.ovf = false ∧ hdrLen < s.cand.length ∧ execPxbyte b s =
      .next (emitDone opPxbyte .ok [] (clearCandidate (emitPkt (s.cand.drop hdrLen) s)))) ∨
    (b = delim ∧ ¬ (s.ovf = false ∧ hdrLen < s.cand.length) ∧ execPxbyte b s =
      .next (emitDone opPxbyte .ok [] (clearCandidate s))) ∨
    (b ≠ delim ∧ s.cand.length < pxMax ∧ execPxbyte b s =
      .next (emitDone opPxbyte .ok [] (pushCandidate b s))) ∨
    (b ≠ delim ∧ pxMax ≤ s.cand.length ∧ execPxbyte b s =
      .next (emitDone opPxbyte .errPxovf [] { s with ovf := true })) := by
  by_cases hb : b = delim
  · by_cases h : s.ovf = false ∧ hdrLen < s.cand.length
    · exact .inl ⟨hb, h.1, h.2, by simp [execPxbyte, hb, emitCandidate, h]⟩
    · exact .inr (.inl ⟨hb, h, by simp only [execPxbyte, hb, emitCandidate, if_neg h, if_true]⟩)
  · by_cases h : s.cand.length < pxMax
    · exact .inr (.inr (.inl ⟨hb, h, by simp [execPxbyte, hb, h]⟩))
    · exact .inr (.inr (.inr ⟨hb, by omega, by simp [execPxbyte, hb, h]⟩))

/-- What executing an operation can do to the state: one case for each way it can end. -/
theorem exec_cases (i : Instr) (s : State) :
    (∃ op st data, exec i s = .next (emitDone op st data s)) ∨
    (exec i s = .next (emitDone opTxclr .ok [] (clearPayload s))) ∨
    (∃ p, s.txbuf.length < txMax ∧
      exec i s = .next (emitDone opTxpush .ok [] (pushPayload p s))) ∨
    (∃ c, isCommandOpcode c = true ∧ exec i s = .next (startSend c s)) ∨
    (exec i s = .next (startExchange .read s)) ∨
    (∃ op, exec i s = .next (emitDone op .ok [] (clearCandidate s))) ∨
    (s.ovf = false ∧ hdrLen < s.cand.length ∧ exec i s =
      .next (emitDone opPxbyte .ok [] (clearCandidate (emitPkt (s.cand.drop hdrLen) s)))) ∨
    (∃ b, b ≠ delim ∧ s.cand.length < pxMax ∧
      exec i s = .next (emitDone opPxbyte .ok [] (pushCandidate b s))) ∨
    (pxMax ≤ s.cand.length ∧
      exec i s = .next (emitDone opPxbyte .errPxovf [] { s with ovf := true })) := by
  have started : ∀ c, isCommandOpcode c = true → exec i s = .next (startSend c s) →
      ∃ c, isCommandOpcode c = true ∧ exec i s = .next (startSend c s) := fun c hc h => ⟨c, hc, h⟩
  cases i with
  | brev a => exact .inl ⟨_, _, _, rfl⟩
  | txclr => exact .inr (.inl rfl)
  | txpush p =>
    by_cases h : s.txbuf.length < txMax
    · exact .inr (.inr (.inl ⟨p, h, by simp [exec, execTxpush, h]⟩))
    · exact .inl ⟨opTxpush, .errTxfull, [], by simp [exec, execTxpush, h]⟩
  | send c =>
    by_cases h : isCommandOpcode c = true
    · exact .inr (.inr (.inr (.inl ⟨c, h, by simp [exec, execSend, h]⟩)))
    · exact .inl ⟨opSend, .errBadcmd, [], by simp [exec, execSend, h]⟩
  | read => exact .inr (.inr (.inr (.inr (.inl rfl))))
  | pxstart => exact .inr (.inr (.inr (.inr (.inr (.inl ⟨_, rfl⟩)))))
  | pxbyte b =>
    obtain ⟨-, ho, hl, h⟩ | ⟨-, -, h⟩ | ⟨hb, hl, h⟩ | ⟨-, hl, h⟩ := execPxbyte_cases b s
    · exact .inr (.inr (.inr (.inr (.inr (.inr (.inl ⟨ho, hl, h⟩))))))
    · exact .inr (.inr (.inr (.inr (.inr (.inl ⟨_, h⟩)))))
    · exact .inr (.inr (.inr (.inr (.inr (.inr (.inr (.inl ⟨b, hb, hl, h⟩)))))))
    · exact .inr (.inr (.inr (.inr (.inr (.inr (.inr (.inr ⟨hl, h⟩)))))))
  | pxend => exact .inr (.inr (.inr (.inr (.inr (.inl ⟨_, rfl⟩)))))
  | reset => exact .inr (.inr (.inr (.inl (started _ (by decide) rfl))))
  | getState => exact .inr (.inr (.inr (.inl (started _ (by decide) rfl))))
  | getVersion => exact .inr (.inr (.inr (.inl (started _ (by decide) rfl))))
  | getPacket => exact .inr (.inr (.inr (.inl (started _ (by decide) rfl))))
  | sendPacket => exact .inr (.inr (.inr (.inl (started _ (by decide) rfl))))
  | setLed => exact .inr (.inr (.inr (.inl (started _ (by decide) rfl))))

end Sys2Proof.Machine
end

