-- ==== Sys2Proof/Laws/PerInstr.lean ====
section
/-! SUPPORT. Statements about every instruction, one lemma per constructor. -/

namespace Sys2Proof.Laws

open Sys2Proof.Machine

/-- The command word that carries an instruction to the core is legal: none of R73's conditions holds. -/
def CarrierIsLegal.Statement (i : Instr) : Prop := legalWord (encode i).carrier = true

theorem CarrierIsLegal.brev (a : Byte) : CarrierIsLegal.Statement (.brev a) := by
  simp [CarrierIsLegal.Statement, encode, Code.carrier, legalWord, opAssigned, rsvZero, argUsed,
    opBrev, opTxclr, opRead, opPxstart, opPxend]

theorem CarrierIsLegal.txclr : CarrierIsLegal.Statement .txclr := rfl

theorem CarrierIsLegal.txpush (p : Byte) : CarrierIsLegal.Statement (.txpush p) := by
  simp [CarrierIsLegal.Statement, encode, Code.carrier, legalWord, opAssigned, rsvZero, argUsed,
    opTxpush, opTxclr, opRead, opPxstart, opPxend]

theorem CarrierIsLegal.send (c : Byte) : CarrierIsLegal.Statement (.send c) := by
  simp [CarrierIsLegal.Statement, encode, Code.carrier, legalWord, opAssigned, rsvZero, argUsed,
    opSend, opTxclr, opRead, opPxstart, opPxend]

theorem CarrierIsLegal.read : CarrierIsLegal.Statement .read := rfl

theorem CarrierIsLegal.pxstart : CarrierIsLegal.Statement .pxstart := rfl

theorem CarrierIsLegal.pxbyte (b : Byte) : CarrierIsLegal.Statement (.pxbyte b) := by
  simp [CarrierIsLegal.Statement, encode, Code.carrier, legalWord, opAssigned, rsvZero, argUsed,
    opPxbyte, opTxclr, opRead, opPxstart, opPxend]

theorem CarrierIsLegal.pxend : CarrierIsLegal.Statement .pxend := rfl

theorem CarrierIsLegal.reset : CarrierIsLegal.Statement .reset := rfl

theorem CarrierIsLegal.getState : CarrierIsLegal.Statement .getState := rfl

theorem CarrierIsLegal.getVersion : CarrierIsLegal.Statement .getVersion := rfl

theorem CarrierIsLegal.getPacket : CarrierIsLegal.Statement .getPacket := rfl

theorem CarrierIsLegal.sendPacket : CarrierIsLegal.Statement .sendPacket := rfl

theorem CarrierIsLegal.setLed : CarrierIsLegal.Statement .setLed := rfl

end Sys2Proof.Laws
end

