-- ==== Sys2Proof/Laws/Step.lean ====
section
/-! SUPPORT. Everything a step can do, said once (`step_cases`), and the small facts about inputs that
proofs over steps start from. -/

namespace Sys2Proof.Machine

/-! ### Runs -/

@[simp] theorem runSteps_zero (s : State) : runSteps 0 s = .next s := rfl

/-- One more step first. -/
theorem runSteps_succ {k : Nat} {s t : State} (h : step s = .next t) :
    runSteps (k + 1) s = runSteps k t := by
  have hc : Sys2Proof.core.step s = .next t := h
  unfold runSteps
  simp only [Host.Core.run, hc]
  rfl

/-- Two runs joined. -/
theorem runSteps_add {j k : Nat} {s t : State} (h : runSteps j s = .next t) :
    runSteps (j + k) s = runSteps k t := by
  induction j generalizing s with
  | zero => cases h; simp
  | succ j ih =>
    cases hs : step s with
    | next u =>
      rw [runSteps_succ hs] at h
      rw [Nat.add_right_comm, runSteps_succ hs]
      exact ih h
    | fault r =>
      have hc : Sys2Proof.core.step s = .fault r := hs
      simp [runSteps, Host.Core.run, hc] at h
    | refused r =>
      have hc : Sys2Proof.core.step s = .refused r := hs
      simp [runSteps, Host.Core.run, hc] at h

/-! ### One step -/

/-- With `rst` at 0 a step is `coreStep` on the state with that level taken off, or the wait of a silent
transport. -/
theorem step_low {s : State} (h : s.rstLow) :
    step s = coreStep s.dropRst ∨
      (coreStep s.dropRst = .fault .transportSilent ∧ step s = .next s.dropRst) := by
  unfold State.rstLow at h
  unfold step cycle
  split
  · rename_i hr
    have hd : s.dropRst = s := by cases s; simp_all [State.dropRst]
    exact .inl (by rw [hd])
  · rename_i hr
    simp [hr] at h
  · rename_i rest hr
    have hd : s.dropRst = { s with rstIn := rest } := by simp [State.dropRst, hr]
    rw [← hd]
    unfold lowInstant
    split
    · rename_i hc
      exact .inr ⟨hc, rfl⟩
    · exact .inl rfl

/-- An accepted word never stops the core: errors are answers (R200). -/
theorem acceptWord_ne_fault (cw : Word) (s : State) (f : Fault) : acceptWord cw s ≠ .fault f := by
  intro hc
  obtain ⟨i, -, ha⟩ | ⟨e, -, ha⟩ := acceptWord_cases cw s
  · rw [ha] at hc
    obtain ⟨_, _, _, he⟩ | he | ⟨_, _, he⟩ | ⟨_, _, he⟩ | he | ⟨_, he⟩ | ⟨_, _, he⟩ |
      ⟨_, _, _, he⟩ | ⟨_, he⟩ := exec_cases i s <;> · rw [he] at hc; cases hc
  · rw [ha] at hc; cases hc

/-- A transfer is silent only with no answer to take. -/
theorem transfer_silent_inv {b : Byte} {onByte : Byte → State → State} {s : State} {f : Fault}
    (h : transfer b onByte s = .fault f) : s.xferIn = [] := by
  cases hx : s.xferIn with
  | nil => rfl
  | cons r rest =>
    obtain ⟨u, hu⟩ := transfer_of_answer b onByte s r rest hx
    rw [hu] at h; cases h

/-- The core is silent only while BUSY with no answer to take (R130). -/
theorem coreStep_silent_inv {s : State} (h : coreStep s = .fault .transportSilent) : s.Waiting := by
  unfold coreStep at h
  split at h
  · unfold acceptNext at h
    split at h
    · cases h
    · exact absurd h (acceptWord_ne_fault _ _ _)
  · rename_i hp
    exact ⟨by simp [hp], transfer_silent_inv h⟩
  · rename_i hp
    unfold frameTransfer at h
    split at h
    · cases h
    · exact ⟨by simp [hp], transfer_silent_inv h⟩
  · rename_i hp
    exact ⟨by simp [hp], transfer_silent_inv h⟩

/-- A step that answers a next state, in all its cases: a reset; the command port of an idle core, with
nothing offered or with a word to accept; a transfer of one of the three kinds; or the wait of a BUSY core
whose transport is silent. -/
theorem step_cases {s t : State} (h : step s = .next t) :
    (∃ rest, s.rstIn = true :: rest ∧ t = takeReset { s with rstIn := rest }) ∨
    (s.rstLow ∧ s.phase = .idle ∧ s.cmdIn = [] ∧ t = s.dropRst) ∨
    (s.rstLow ∧ s.phase = .idle ∧ ∃ cw rest, s.cmdIn = cw :: rest ∧
      acceptWord cw (takeOffer rest s.dropRst) = .next t) ∨
    (s.rstLow ∧ s.phase = .sync ∧ syncTransfer s.dropRst = .next t) ∨
    (s.rstLow ∧ s.phase = .frame ∧ ∃ b, frameByte s s.txi.toNat = some b ∧
      transfer b frameReceive s.dropRst = .next t) ∨
    (s.rstLow ∧ s.phase = .fill ∧ fillTransfer s.dropRst = .next t) ∨
    (s.rstLow ∧ s.Waiting ∧ t = s.dropRst) := by
  by_cases hl : s.rstLow
  · obtain hs | ⟨hc, hs⟩ := step_low hl
    · rw [h] at hs
      have hs := hs.symm
      unfold coreStep at hs
      split at hs
      · rename_i hp
        unfold acceptNext at hs
        split at hs
        · rename_i hc
          injection hs with hs
          exact .inr (.inl ⟨hl, hp, hc, hs.symm⟩)
        · rename_i cw rest hc
          exact .inr (.inr (.inl ⟨hl, hp, cw, rest, hc, hs⟩))
      · rename_i hp
        exact .inr (.inr (.inr (.inl ⟨hl, hp, hs⟩)))
      · rename_i hp
        unfold frameTransfer at hs
        split at hs
        · cases hs
        · rename_i b hb
          exact .inr (.inr (.inr (.inr (.inl ⟨hl, hp, b, hb, hs⟩))))
      · rename_i hp
        exact .inr (.inr (.inr (.inr (.inr (.inl ⟨hl, hp, hs⟩)))))
    · rw [h] at hs
      injection hs with hs
      exact .inr (.inr (.inr (.inr (.inr (.inr ⟨hl, (coreStep_silent_inv hc : _), hs⟩)))))
  · refine .inl ?_
    unfold State.rstLow at hl
    unfold step cycle at h
    split at h
    · rename_i hr; simp [hr] at hl
    · rename_i rest hr
      injection h with h
      exact ⟨rest, hr, h.symm⟩
    · rename_i rest hr; simp [hr] at hl

/-! ### Steps by BUSY -/

/-- No completion outside FILL (R132). -/
theorem checkComplete_of_not_fill {s : State} (h : s.phase ≠ .fill) : checkComplete s = s := by
  obtain ⟨hp, -⟩ | ⟨hp, -⟩ | ⟨-, hc⟩ := checkComplete_cases s
  · exact absurd hp h
  · exact absurd hp h
  · exact hc

/-- What a received byte leaves for the completion check: still BUSY, and only the ReceiveBuffer, PHASE and
TXI written (R42). -/
def Received (u v : State) : Prop :=
  v.phase ≠ .idle ∧ v = { u with
    phase := v.phase, awaiting := v.awaiting, rem := v.rem, rxbuf := v.rxbuf, txi := v.txi }

theorem syncReceive_received (r : Byte) (u : State) :
    ∃ v, Received u v ∧ syncReceive r u = checkComplete v := by
  refine ⟨_, ⟨?_, ?_⟩, rfl⟩
  · cases h : u.kind <;> simp [phaseAfterSync]
  · cases h : u.lenSrc <;> simp [syncAccept, h]

theorem frameReceive_received (r : Byte) (u : State) (h : u.phase = .frame) :
    ∃ v, Received u v ∧ frameReceive r u = checkComplete v := by
  unfold frameReceive
  split
  · refine ⟨_, ⟨?_, ?_⟩, rfl⟩
    · simp
    · rw [rxAccept_frame]
  · have hp : (rxAccept r u).phase = .frame := by rw [rxAccept_frame]; exact h
    refine ⟨_, ⟨?_, ?_⟩, (checkComplete_of_not_fill ?_).symm⟩
    · simp [hp]
    · rw [rxAccept_frame]
    · simp [hp]

theorem fillReceive_received (r : Byte) (u : State) (h : u.phase = .fill) :
    ∃ v, Received u v ∧ fillReceive r u = checkComplete v := by
  refine ⟨_, ⟨?_, ?_⟩, rfl⟩
  · rw [rxAccept_frame]; simp [h]
  · rw [rxAccept_frame]

/-- A step of a BUSY core with `rst` at 0, in all its cases: waiting, an abort, or a received byte and the
completion check. -/
theorem busy_step_cases {s t : State} (hl : s.rstLow) (hb : s.phase ≠ .idle)
    (h : step s = .next t) :
    (s.xferIn = [] ∧ t = s.dropRst) ∨
    (∃ b rest, s.wireOut = some b ∧ s.xferIn = .fail :: rest ∧
      t = abortExchange (logTransfer b .fail rest s.dropRst)) ∨
    (∃ b w rest v, s.wireOut = some b ∧ s.xferIn = .ok w :: rest ∧
      Received (logTransfer b (.ok w) rest s.dropRst) v ∧ t = checkComplete v) := by
  obtain ⟨rest, hr, -⟩ | ⟨-, hp, -⟩ | ⟨-, hp, -⟩ | ⟨-, hp, ht⟩ | ⟨-, hp, b, hf, ht⟩ | ⟨-, hp, ht⟩ |
    ⟨-, hw, rfl⟩ := step_cases h
  · exact absurd (by rw [hr]; rfl) hl
  · exact absurd hp hb
  · exact absurd hp hb
  · have hwire : s.wireOut = some (brev8 syncByte) := by simp [State.wireOut, hp]
    obtain ⟨w, rest, hx, rfl⟩ | ⟨rest, hx, rfl⟩ := transfer_cases ht
    · obtain ⟨v, hv, he⟩ := syncReceive_received (brev8 w)
        (logTransfer (brev8 syncByte) (.ok w) rest s.dropRst)
      exact .inr (.inr ⟨_, w, rest, v, hwire, hx, hv, he⟩)
    · exact .inr (.inl ⟨_, rest, hwire, hx, rfl⟩)
  · have hwire : s.wireOut = some (brev8 b) := by simp [State.wireOut, hp, hf]
    obtain ⟨w, rest, hx, rfl⟩ | ⟨rest, hx, rfl⟩ := transfer_cases ht
    · obtain ⟨v, hv, he⟩ := frameReceive_received (brev8 w)
        (logTransfer (brev8 b) (.ok w) rest s.dropRst) hp
      exact .inr (.inr ⟨_, w, rest, v, hwire, hx, hv, he⟩)
    · exact .inr (.inl ⟨_, rest, hwire, hx, rfl⟩)
  · have hwire : s.wireOut = some (brev8 fillByte) := by simp [State.wireOut, hp]
    obtain ⟨w, rest, hx, rfl⟩ | ⟨rest, hx, rfl⟩ := transfer_cases ht
    · obtain ⟨v, hv, he⟩ := fillReceive_received (brev8 w)
        (logTransfer (brev8 fillByte) (.ok w) rest s.dropRst) hp
      exact .inr (.inr ⟨_, w, rest, v, hwire, hx, hv, he⟩)
    · exact .inr (.inl ⟨_, rest, hwire, hx, rfl⟩)
  · exact .inl ⟨hw.2, rfl⟩

/-- A step of an idle core with `rst` at 0: waiting for a word, or accepting one. -/
theorem idle_step_cases {s t : State} (hl : s.rstLow) (hp : s.phase = .idle)
    (h : step s = .next t) :
    (s.cmdIn = [] ∧ t = s.dropRst) ∨
    (∃ cw rest, s.cmdIn = cw :: rest ∧ acceptWord cw (takeOffer rest s.dropRst) = .next t) := by
  obtain ⟨rest, hr, -⟩ | ⟨-, -, hc, ht⟩ | ⟨-, -, cw, rest, hc, ha⟩ | ⟨-, hp', ht⟩ |
    ⟨-, hp', b, hf, ht⟩ | ⟨-, hp', ht⟩ | ⟨-, hw, -⟩ := step_cases h
  · exact absurd (by rw [hr]; rfl) hl
  · exact .inl ⟨hc, ht⟩
  · exact .inr ⟨cw, rest, hc, ha⟩
  · simp [hp] at hp'
  · simp [hp] at hp'
  · simp [hp] at hp'
  · exact absurd hp hw.1

/-! ### Histories -/

@[simp] theorem doneCount_append (a b : List Event) :
    doneCount (a ++ b) = doneCount a + doneCount b := by simp [doneCount]

@[simp] theorem packetsOf_append (a b : List Event) :
    packetsOf (a ++ b) = packetsOf a ++ packetsOf b := by simp [packetsOf]

end Sys2Proof.Machine
end

