-- ==== Sys2Proof/Tests/Slice0.lean ====
section
/-! SUPPORT. The model's own tests, each on one step of a small state, and a witness for the hypotheses of
every statement. Expected values come from spec/95_test_vectors.md unless a comment says otherwise. -/

namespace Sys2Proof.Tests

open Sys2Proof.Machine

/-! ### Helpers -/

/-- The next state of an outcome. -/
def answer : Host.Outcome State Fault Refusal → Option State
  | .next t => some t
  | .fault _ => none
  | .refused _ => none

/-- What the spec's vectors show of a state: the events, STAT0 and STAT1. -/
def seen (o : Host.Outcome State Fault Refusal) : Option (List Event × Nat × Nat) :=
  (answer o).map fun t => (t.rsp, t.stat0.toNat, t.stat1.toNat)

/-- The wire form of the frame that an accepted SEND will transmit. -/
def frameOnWire (o : Host.Outcome State Fault Refusal) : Option (List Byte) :=
  (answer o).map fun t => t.frameBytes.map brev8

/-- A reset core that holds a payload. -/
def loaded (payload : List Byte) : State := { State.reset with txbuf := payload }

/-- A reset core with a candidate in progress. -/
def holding (cand : List Byte) : State := { State.reset with cand := cand }

/-- A reset core that is offered words, with answers waiting. -/
def offered (words : List Word) (replies : List Reply) : State :=
  { State.reset with cmdIn := words, xferIn := replies }

/-- An exchange in progress on an otherwise reset core. -/
def exchanging (phase : Phase) (kind : Kind) (replies : List Reply) : State :=
  { State.reset with phase := phase, kind := kind, txop := 0x01#8, xferIn := replies }

/-! ### Well-formedness: each check refuses an ill-formed term (R73, R92) -/

theorem test_op_zero_is_refused : legalWord 0x0000#16 = false := by decide
theorem test_op_nine_is_refused : legalWord 0x9000#16 = false := by decide
theorem test_op_fifteen_is_refused : legalWord 0xF0FF#16 = false := by decide
theorem test_reserved_bits_are_refused : legalWord 0x4100#16 = false := by decide
theorem test_txclr_with_arg_is_refused : legalWord 0x2001#16 = false := by decide
theorem test_read_with_arg_is_refused : legalWord 0x5001#16 = false := by decide
theorem test_pxstart_with_arg_is_refused : legalWord 0x6080#16 = false := by decide
theorem test_pxend_with_arg_is_refused : legalWord 0x8001#16 = false := by decide
theorem test_payload_of_255_is_refused : payloadFits (List.replicate 255 0#8) = false := by
  decide +kernel
theorem test_payload_of_254_is_accepted : payloadFits (List.replicate 254 0#8) = true := by
  decide +kernel

/-! ### Decoding: words written out from R70, R72 and R90 -/

theorem test_decode_brev : decodeTableWord 16 0x1001 = some (.brev 0x01#8) := by decide
theorem test_decode_txclr : decodeTableWord 16 0x2000 = some .txclr := by decide
theorem test_decode_txpush : decodeTableWord 16 0x3008 = some (.txpush 0x08#8) := by decide
theorem test_decode_send : decodeTableWord 16 0x4001 = some (.send 0x01#8) := by decide
theorem test_decode_read : decodeTableWord 16 0x5000 = some .read := by decide
theorem test_decode_pxstart : decodeTableWord 16 0x6000 = some .pxstart := by decide
theorem test_decode_pxbyte : decodeTableWord 16 0x70AA = some (.pxbyte 0xAA#8) := by decide
theorem test_decode_pxend : decodeTableWord 16 0x8000 = some .pxend := by decide
theorem test_decode_reset : decodeTableWord 8 0x07 = some .reset := by decide
theorem test_decode_getState : decodeTableWord 8 0x01 = some .getState := by decide
theorem test_decode_getVersion : decodeTableWord 8 0x02 = some .getVersion := by decide
theorem test_decode_getPacket : decodeTableWord 8 0x03 = some .getPacket := by decide
theorem test_decode_sendPacket : decodeTableWord 8 0x04 = some .sendPacket := by decide
theorem test_decode_setLed : decodeTableWord 8 0x08 = some .setLed := by decide
theorem test_decode_refuses_illegal_word : decodeTableWord 16 0x3F41 = none := by decide
theorem test_decode_refuses_other_opcode : decodeTableWord 8 0x05 = none := by decide

/-! ### Instructions (95_test_vectors.md sections 2 to 5) -/

theorem test_brev_0x12 : seen (exec (.brev 0x12#8) State.reset)
    = some ([.done 0x1#4 .ok [0x48#8]], 0x00000000, 0x00000000) := by decide

theorem test_brev_0xF0 : seen (exec (.brev 0xF0#8) State.reset)
    = some ([.done 0x1#4 .ok [0x0F#8]], 0x00000000, 0x00000000) := by decide

theorem test_txclr_after_txpush : seen (exec .txclr (loaded [0x08#8]))
    = some ([.done 0x2#4 .ok []], 0x00000000, 0x00000000) := by decide

theorem test_txpush_second_byte : seen (exec (.txpush 0x00#8) (loaded [0x41#8]))
    = some ([.done 0x3#4 .ok []], 0x00000000, 0x00000002) := by decide

theorem test_txpush_full : seen (exec (.txpush 0xFF#8) (loaded (List.replicate 254 0#8)))
    = some ([.done 0x3#4 .errTxfull []], 0x00000300, 0x000000FE) := by decide +kernel

/-- Trace T1, the acceptance. -/
theorem test_send_starts : seen (exec (.send 0x01#8) (loaded [0x41#8]))
    = some ([], 0x00000003, 0x01000001) := by decide

/-- Vector B1. -/
theorem test_send_bad_opcode : seen (exec (.send 0x05#8) (loaded [0x05#8]))
    = some ([.done 0x4#4 .errBadcmd []], 0x00000200, 0x00000001) := by decide

/-- Trace T3, the acceptance. -/
theorem test_read_starts : seen (exec .read State.reset)
    = some ([], 0x0000000B, 0x00000000) := by decide

theorem test_pxstart_discards : seen (exec .pxstart (holding [0xAA#8, 0xBB#8]))
    = some ([.done 0x6#4 .ok []], 0x00000000, 0x00000000) := by decide

/-- Section 5, `AA BB 41 00`: the shortest packet. -/
theorem test_pxbyte_emits : seen (exec (.pxbyte 0x00#8) (holding [0xAA#8, 0xBB#8, 0x41#8]))
    = some ([.pkt [0x41#8], .done 0x7#4 .ok []], 0x00000000, 0x00000000) := by decide

/-- Section 5, the state at the overflow. -/
theorem test_pxbyte_overflows :
    seen (exec (.pxbyte 0x22#8) (holding (List.replicate 255 0x11#8)))
    = some ([.done 0x7#4 .errPxovf []], 0x00000520, 0x00FF0000) := by decide +kernel

/-- Program P3, the last step: the trailing byte is dropped. -/
theorem test_pxend_drops : seen (exec .pxend (holding [0x5A#8]))
    = some ([.done 0x8#4 .ok []], 0x00000000, 0x00000000) := by decide

/-! ### Frame commands (section 1, the frames of the commands, E7 and E9) -/

theorem test_reset_frame : frameOnWire (exec .reset State.reset)
    = some [0x80#8, 0xE0#8] := by decide
theorem test_getState_frame : frameOnWire (exec .getState State.reset)
    = some [0x80#8, 0x80#8] := by decide
theorem test_getVersion_frame : frameOnWire (exec .getVersion State.reset)
    = some [0x80#8, 0x40#8] := by decide
theorem test_getPacket_frame : frameOnWire (exec .getPacket (loaded (getPacketPayload 8#8 250#32)))
    = some [0x60#8, 0xC0#8, 0x10#8, 0x5F#8, 0x00#8, 0x00#8, 0x00#8] := by decide
theorem test_sendPacket_frame :
    frameOnWire (exec .sendPacket (loaded (sendPacketPayload 8#8 4#8 100#8 [0x41#8, 0x42#8])))
    = some [0xE0#8, 0x20#8, 0x10#8, 0x20#8, 0x26#8, 0x82#8, 0x42#8, 0x00#8] := by decide
theorem test_setLed_frame : frameOnWire (exec .setLed (loaded (setLedPayload 0#8 1#8)))
    = some [0xC0#8, 0x10#8, 0x00#8, 0x80#8] := by decide

/-! ### Transfers, reset and illegal words (sections 4 and 6) -/

/-- Trace T1, the SYNC transfer: wire 99 out, 5A back. -/
theorem test_sync_transfer :
    seen (step { exchanging .sync .cmd [.ok 0x5A#8] with txbuf := [0x41#8] })
    = some ([], 0x00000015, 0x01000001) := by decide

/-- Trace T1, the first FRAME transfer: the length 3 is latched from wire C0. -/
theorem test_first_frame_transfer :
    seen (step { exchanging .frame .cmd [.ok 0xC0#8] with txbuf := [0x41#8], awaiting := true })
    = some ([], 0x00030005, 0x01000101) := by decide

/-- Trace T2, the last FRAME transfer completes the exchange. -/
theorem test_last_frame_transfer :
    seen (step { exchanging .frame .cmd [.ok 0xC5#8] with
      txbuf := [0x41#8], txi := 2#8, rem := 1#8, rxbuf := [0xA1#8, 0xA2#8] })
    = some ([.done 0x4#4 .ok []], 0x03000000, 0x01000200) := by decide

/-- Vector S3, the last FRAME transfer: TXI stays at 3 while TXCNT is cleared (R132). -/
theorem test_completed_send_keeps_txi :
    seen (step { exchanging .frame .cmd [.ok 0xCC#8] with
      txbuf := [0x00#8, 0x01#8], txop := 0x08#8, txi := 3#8, rxbuf := [0x11#8] })
    = some ([.done 0x4#4 .ok []], 0x01000000, 0x08000300) := by decide

/-- Trace T3, the last FILL transfer delivers the response. -/
theorem test_last_fill_transfer :
    seen (step { exchanging .fill .read [.ok 0xD2#8] with rem := 1#8, rxbuf := [0x4F#8] })
    = some ([.done 0x5#4 .ok [0x4F#8, 0x4B#8]], 0x00000008, 0x01000000) := by decide

/-- Vector R3: under SYNC_REPLY a READ of length 0 takes one transfer. -/
theorem test_sync_reply_empty_read :
    seen (step { exchanging .sync .read [.ok 0x00#8] with lenSrc := .syncReply, txop := 0x00#8 })
    = some ([.done 0x5#4 .ok []], 0x00000048, 0x00000000) := by decide

/-- Vector F1: the failed transfer. -/
theorem test_failed_transfer :
    seen (step { exchanging .frame .cmd [.fail] with
      txbuf := [0x00#8, 0x01#8], txop := 0x08#8, txi := 2#8, rem := 2#8, rxbuf := [0xAA#8] })
    = some ([.done 0x4#4 .errTransport []], 0x01020400, 0x08000200) := by decide

/-- Section 4.3: a reset in the middle of an exchange. -/
theorem test_reset_mid_exchange :
    seen (step { exchanging .frame .cmd [.ok 0x00#8] with rstIn := [true], txi := 1#8 })
    = some ([], 0x00000000, 0x00000000) := by decide

/-- Section 4.3: a word offered while BUSY is held. -/
theorem test_word_waits_while_busy :
    (answer (step { exchanging .frame .cmd [.ok 0xC0#8] with cmdIn := [0x3055#16] })).map
      (fun t => (t.cmdIn, t.txbuf)) = some ([0x3055#16], []) := by decide

theorem test_illegal_rsv : seen (step (offered [0x3F41#16] []))
    = some ([.done 0x3#4 .errIllegal []], 0x00000100, 0x00000000) := by decide

theorem test_illegal_op : seen (step (offered [0xF0FF#16] []))
    = some ([.done 0xF#4 .errIllegal []], 0x00000100, 0x00000000) := by decide

/-! ### Packet streams and assembly (section 5; R91 to R93) -/

/-- Section 5, the mixed stream of program P3. -/
theorem test_extract_mixed :
    extract [0xAA#8, 0xBB#8, 0x41#8, 0x42#8, 0x00#8, 0x41#8, 0x42#8, 0x00#8, 0x00#8, 0x11#8,
      0x22#8, 0x33#8, 0x00#8, 0x5A#8] = [[0x41#8, 0x42#8], [0x33#8]] := by decide

/-- E7, as words. -/
theorem test_assemble_sendpkt : assembleLine "SENDPKT 8, 4, 100, 'A', 0x42 ; two bytes".toList
    = .ok [0x2000#16, 0x3008#16, 0x3004#16, 0x3064#16, 0x3041#16, 0x3042#16, 0x3000#16,
      0x4004#16] := by decide

/-- Program P3, steps 1 to 8. -/
theorem test_assemble_getpkts : assembleLine "GETPKTS 8, 250".toList
    = .ok [0x2000#16, 0x3008#16, 0x30FA#16, 0x3000#16, 0x3000#16, 0x3000#16, 0x4003#16,
      0x5000#16] := by decide

theorem test_assemble_send_name : assembleLine "SEND GET_STATE".toList = .ok [0x4001#16] := by decide

theorem test_assemble_extract : assembleLine "EXTRACT 0xAA, 0x00".toList
    = .ok [0x6000#16, 0x70AA#16, 0x7000#16, 0x8000#16] := by decide

/-- R91: no operand is wider than a byte. -/
theorem test_assemble_refuses_256 : assembleLine "TXPUSH 256".toList = .error .badOperand := by
  decide

/-! ### Witnesses: for each statement with hypotheses, a state and operands that meet all of them -/

theorem witness_BrevReversesEveryBit : (7 : Nat) < 8 := by decide

theorem witness_TxpushAppendsUntil254Bytes_append :
    (loaded (List.replicate 253 0#8)).txbuf.length < 254 := by decide +kernel
theorem witness_TxpushAppendsUntil254Bytes_full :
    (loaded (List.replicate 254 0#8)).txbuf.length = 254 := by decide +kernel

theorem witness_SendAndReadStartTheExchange :
    (0x08#8 : Byte) ∈ [0x01#8, 0x02#8, 0x03#8, 0x04#8, 0x07#8, 0x08#8] := by decide
/-- The bytes next to the opcodes' ends. -/
theorem witness_SendRefusesOtherOpcodes :
    ∀ c ∈ [0x00#8, 0x05#8, 0x06#8, 0x09#8, 0xFF#8],
      c ∉ [0x01#8, 0x02#8, 0x03#8, 0x04#8, 0x07#8, 0x08#8] := by decide

theorem witness_PxbyteFeedsTheCandidate_emit :
    (holding [0xAA#8, 0xBB#8, 0x41#8]).ovf = false
      ∧ 2 < (holding [0xAA#8, 0xBB#8, 0x41#8]).cand.length := by decide
theorem witness_PxbyteFeedsTheCandidate_short :
    (holding [0xAA#8, 0xBB#8]).cand.length ≤ 2 := by decide
theorem witness_PxbyteFeedsTheCandidate_overflowed :
    { holding [0xAA#8, 0xBB#8, 0x41#8] with ovf := true }.ovf = true := by decide
theorem witness_PxbyteFeedsTheCandidate_append :
    (0x11#8 : Byte) ≠ 0x00#8 ∧ (holding (List.replicate 254 0x11#8)).cand.length < 255 := by
  decide +kernel
theorem witness_PxbyteFeedsTheCandidate_full :
    (0x11#8 : Byte) ≠ 0x00#8 ∧ (holding (List.replicate 255 0x11#8)).cand.length = 255 := by
  decide +kernel

theorem witness_PacketsCarryTheCandidateWithoutHeader :
    ∃ t, { holding [0xAA#8, 0xBB#8, 0x41#8] with cmdIn := [0x7000#16] }.Inv ∧
      step { holding [0xAA#8, 0xBB#8, 0x41#8] with cmdIn := [0x7000#16] } = .next t ∧
      packetsOf t.rsp = [[0x41#8]] := ⟨_, by decide, rfl, by decide⟩

/-- A stream with a packet. -/
theorem witness_ExtractionAgreesWithTheSourceFunction :
    ∀ buffer : List Byte, buffer = [0xAA#8, 0xBB#8, 0x41#8, 0x42#8, 0x00#8] →
    (offered (expandExtract buffer ++ [0x5000#16]) []).phase = .idle ∧
    (offered (expandExtract buffer ++ [0x5000#16]) []).rstIn = [] ∧
    (∀ c ∈ terminated buffer, c.length ≤ 255) ∧ extract buffer = [[0x41#8, 0x42#8]] := by
  rintro _ rfl; decide
/-- The longest terminated candidate, and a trailing one that overflows. -/
theorem witness_ExtractionAgreesWithTheSourceFunction_longest :
    ∀ c ∈ terminated (List.replicate 255 0x11#8 ++ [0x00#8] ++ List.replicate 256 0x11#8),
      c.length ≤ 255 := by decide +kernel

theorem witness_SyncTransferStartsTheLength_nextAfterSync :
    let s := exchanging .sync .cmd [.ok 0x5A#8]
    s.rstLow ∧ s.phase = .sync ∧ s.xferIn = .ok 0x5A#8 :: [] ∧ s.lenSrc = .nextAfterSync := by
  decide
theorem witness_SyncTransferStartsTheLength_syncReply :
    let s := { exchanging .sync .read [.ok 0x80#8] with lenSrc := .syncReply }
    s.rstLow ∧ s.phase = .sync ∧ s.xferIn = .ok 0x80#8 :: [] ∧ s.lenSrc = .syncReply
      ∧ brev8 0x80#8 ≠ 0#8 := by decide
theorem witness_SyncTransferStartsTheLength_emptyRead :
    let s := { exchanging .sync .read [.ok 0x00#8] with lenSrc := .syncReply }
    s.rstLow ∧ s.phase = .sync ∧ s.xferIn = .ok 0x00#8 :: [] ∧ s.lenSrc = .syncReply
      ∧ s.kind = .read ∧ brev8 0x00#8 = 0#8 := by decide
theorem witness_SyncTransferStartsTheLength_fail :
    let s := exchanging .sync .cmd [.fail]
    s.rstLow ∧ s.phase = .sync ∧ s.xferIn = .fail :: [] := by decide

theorem witness_FrameTransferSendsFrameByteTxi_middle :
    let s := exchanging .frame .cmd [.ok 0xC0#8]
    s.rstLow ∧ s.phase = .frame ∧ frameByte s s.txi.toNat = some 0x01#8
      ∧ s.xferIn = .ok 0xC0#8 :: [] ∧ s.txi.toNat ≠ s.txbuf.length + 1 := by decide
theorem witness_FrameTransferSendsFrameByteTxi_last :
    let s := { exchanging .frame .cmd [.ok 0xC0#8] with txi := 1#8 }
    s.rstLow ∧ s.phase = .frame ∧ frameByte s s.txi.toNat = some 0x01#8
      ∧ s.xferIn = .ok 0xC0#8 :: [] ∧ s.txi.toNat = s.txbuf.length + 1 := by decide
theorem witness_FrameTransferSendsFrameByteTxi_fail :
    let s := exchanging .frame .cmd [.fail]
    s.rstLow ∧ s.phase = .frame ∧ frameByte s s.txi.toNat = some 0x01#8
      ∧ s.xferIn = .fail :: [] := by decide

theorem witness_ReceivedBytesLatchAppendOrVanish_latch :
    { exchanging .fill .read [] with awaiting := true }.awaiting = true := by decide
theorem witness_ReceivedBytesLatchAppendOrVanish_append :
    let s := { exchanging .fill .read [] with rem := 1#8 }
    s.awaiting = false ∧ 0 < s.rem.toNat := by decide
theorem witness_ReceivedBytesLatchAppendOrVanish_vanish :
    let s := exchanging .frame .cmd []
    s.awaiting = false ∧ s.rem.toNat = 0 := by decide

theorem witness_FillTransferPullsOneByte_ok :
    let s := { exchanging .fill .read [.ok 0xD2#8] with rem := 1#8 }
    s.rstLow ∧ s.phase = .fill ∧ s.xferIn = .ok 0xD2#8 :: [] := by decide
theorem witness_FillTransferPullsOneByte_fail :
    let s := { exchanging .fill .read [.fail] with rem := 1#8 }
    s.rstLow ∧ s.phase = .fill ∧ s.xferIn = .fail :: [] := by decide

theorem witness_ReadFetchesTheLengthByAFiller_length :
    let s := exchanging .sync .read [.ok 0x5A#8, .ok 0x80#8]
    s.phase = .sync ∧ s.kind = .read ∧ s.rxbuf = [] ∧ s.rem = 0#8 ∧ s.rstIn = []
      ∧ s.lenSrc = .nextAfterSync ∧ s.xferIn = .ok 0x5A#8 :: .ok 0x80#8 :: []
      ∧ brev8 0x80#8 ≠ 0#8 := by decide
theorem witness_ReadFetchesTheLengthByAFiller_empty :
    let s := exchanging .sync .read [.ok 0x5A#8, .ok 0x00#8]
    s.phase = .sync ∧ s.kind = .read ∧ s.rxbuf = [] ∧ s.rem = 0#8 ∧ s.rstIn = []
      ∧ s.lenSrc = .nextAfterSync ∧ s.xferIn = .ok 0x5A#8 :: .ok 0x00#8 :: []
      ∧ brev8 0x00#8 = 0#8 := by decide
theorem witness_ReadFetchesTheLengthByAFiller_syncReply :
    let s := { exchanging .sync .read [.ok 0x80#8] with lenSrc := .syncReply }
    s.phase = .sync ∧ s.kind = .read ∧ s.rxbuf = [] ∧ s.rem = 0#8 ∧ s.rstIn = []
      ∧ s.lenSrc = .syncReply ∧ s.xferIn = .ok 0x80#8 :: [] ∧ brev8 0x80#8 ≠ 0#8 := by decide

theorem witness_CompletionAnswersTheCommand_send :
    let s := exchanging .fill .cmd []
    s.phase = .fill ∧ s.awaiting = false ∧ s.rem = 0#8 ∧ s.kind = .cmd := by decide
theorem witness_CompletionAnswersTheCommand_read :
    let s := { exchanging .fill .read [] with rxbuf := [0x4F#8] }
    s.phase = .fill ∧ s.awaiting = false ∧ s.rem = 0#8 ∧ s.kind = .read := by decide
theorem witness_CompletionAnswersTheCommand_unfinished :
    let s := { exchanging .fill .read [] with rem := 1#8 }
    ¬ (s.phase = .fill ∧ s.awaiting = false ∧ s.rem = 0#8) := by decide

theorem witness_FailedTransferAbortsTheExchange_send :
    let s := { exchanging .frame .cmd [.fail] with txbuf := [0x07#8], txi := 2#8 }
    s.rstLow ∧ s.wireOut = some 0xE0#8 ∧ s.xferIn = .fail :: [] ∧ s.kind = .cmd := by decide
theorem witness_FailedTransferAbortsTheExchange_read :
    let s := exchanging .sync .read [.fail]
    s.rstLow ∧ s.wireOut = some 0x99#8 ∧ s.xferIn = .fail :: [] ∧ s.kind = .read := by decide

theorem witness_FrameIsLengthOpcodePayload_longest :
    (loaded (List.replicate 254 0#8)).txbuf.length ≤ 254 := by decide +kernel
theorem witness_FrameIsLengthOpcodePayload_frame :
    (exchanging .frame .cmd []).phase = .frame := by decide

theorem witness_CommandFramesMatchTheirLayouts_bare :
    let s := exchanging .frame .cmd []
    s.txop = 0x01#8 ∧ s.txbuf = [] := by decide
theorem witness_CommandFramesMatchTheirLayouts_getPacket :
    let s := { loaded (getPacketPayload 8#8 250#32) with txop := 0x03#8 }
    s.txop = 0x03#8 ∧ s.txbuf = getPacketPayload 8#8 250#32 := by decide
theorem witness_CommandFramesMatchTheirLayouts_sendPacket :
    let s := { loaded (sendPacketPayload 8#8 4#8 100#8 [0x41#8]) with txop := 0x04#8 }
    s.txop = 0x04#8 ∧ s.txbuf = sendPacketPayload 8#8 4#8 100#8 [0x41#8] := by decide
theorem witness_CommandFramesMatchTheirLayouts_setLed :
    let s := { loaded (setLedPayload 0#8 1#8) with txop := 0x08#8 }
    s.txop = 0x08#8 ∧ s.txbuf = setLedPayload 0#8 1#8 := by decide

theorem witness_StepRunsTheDecodedCommand :
    let s := offered [0x1001#16, 0x2000#16] []
    s.rstLow ∧ s.phase = .idle ∧ s.cmdIn = 0x1001#16 :: [0x2000#16] ∧
      decodeWord 0x1001#16 = .ok (.brev 0x01#8) := ⟨by decide, rfl, rfl, rfl⟩

theorem witness_StepRunsTheCarriedFrameCommand :
    let s := offered [0x4007#16] []
    s.rstLow ∧ s.phase = .idle ∧ s.cmdIn = (0x4000#16 ||| (0x07#8).setWidth 16) :: [] ∧
      decodeOpcode 0x07#8 = .ok .reset := ⟨by decide, rfl, rfl, rfl⟩

theorem witness_PlacedWordRunsNext_word :
    decodeTableWord 16 0x3041 = some (.txpush 0x41#8) := by decide
theorem witness_PlacedWordRunsNext_opcode : decodeTableWord 8 0x04 = some .sendPacket := by decide

theorem witness_IllegalWordOnlyReports :
    let s := offered [0x5001#16] []
    s.rstLow ∧ s.phase = .idle ∧ s.cmdIn = 0x5001#16 :: [] ∧ legalWord 0x5001#16 = false := by
  decide

theorem witness_BusyStepsTransferAndAcceptNoWord_busy :
    let s := { exchanging .frame .cmd [.ok 0xC0#8] with cmdIn := [0x3055#16] }
    ∃ t, s.rstLow ∧ step s = .next t ∧ s.phase ≠ .idle ∧ s.xferIn = .ok 0xC0#8 :: [] :=
  ⟨_, by decide, rfl, by decide, rfl⟩
theorem witness_BusyStepsTransferAndAcceptNoWord_idle :
    ∃ t, (offered [0x2000#16] []).rstLow ∧ step (offered [0x2000#16] []) = .next t ∧
      (offered [0x2000#16] []).phase = .idle := ⟨_, by decide, rfl, rfl⟩

theorem witness_EveryAcceptedWordGetsOneDone :
    ∃ t, (offered [0x4001#16] []).rstLow ∧ step (offered [0x4001#16] []) = .next t ∧
      t.owed = 1 := ⟨_, by decide, rfl, rfl⟩

theorem witness_SameStepDoneCarriesTheWordsOp :
    let s := { holding [0xAA#8, 0xBB#8, 0x41#8] with cmdIn := [0x7000#16] }
    ∃ t, s.rstLow ∧ s.phase = .idle ∧ s.cmdIn = 0x7000#16 :: [] ∧ step s = .next t ∧
      t.phase = .idle := ⟨_, by decide, rfl, rfl, rfl, rfl⟩

theorem witness_LastErrIsTheLatestStatus :
    ∃ t, (offered [0x4005#16] []).rstLow ∧ step (offered [0x4005#16] []) = .next t ∧
      t.lastErr = .errBadcmd := ⟨_, by decide, rfl, rfl⟩

theorem witness_HistoriesOnlyGrow :
    ∃ t, step (exchanging .sync .read [.fail]) = .next t ∧ t.rsp.length = 1 ∧ t.bus.length = 1 :=
  ⟨_, rfl, rfl, rfl⟩

theorem witness_EventDataStaysInItsBounds :
    let s := { exchanging .fill .read [.ok 0xD2#8] with rem := 1#8, rxbuf := [0x4F#8] }
    ∃ t, s.Inv ∧ step s = .next t ∧ t.rsp = [.done 0x5#4 .ok [0x4F#8, 0x4B#8]] :=
  ⟨_, by decide, rfl, rfl⟩

theorem witness_ReceivedPlusRemainingIsConserved_running :
    let s := { exchanging .frame .cmd [.ok 0x85#8] with rem := 255#8 }
    ∃ t, s.rstLow ∧ s.phase = .frame ∧ s.awaiting = false ∧ step s = .next t ∧ t.phase ≠ .idle :=
  ⟨_, by decide, rfl, rfl, rfl, by decide⟩
theorem witness_ReceivedPlusRemainingIsConserved_completed :
    let s := { exchanging .fill .cmd [.ok 0x85#8] with rem := 1#8 }
    ∃ t, s.rstLow ∧ s.phase = .fill ∧ s.awaiting = false ∧ step s = .next t ∧
      t.phase = .idle ∧ t.lastErr = .ok ∧ s.kind = .cmd :=
  ⟨_, by decide, rfl, rfl, rfl, rfl, rfl, rfl⟩

theorem witness_TxiFollowsTheFrame_start :
    ∃ t, (offered [0x5000#16] []).Inv ∧ step (offered [0x5000#16] []) = .next t ∧
      (offered [0x5000#16] []).phase = .idle ∧ t.phase ≠ .idle ∧ t.kind = .read :=
  ⟨_, by decide, rfl, rfl, by decide, rfl⟩
/-- The longest frame, one byte before its last. -/
theorem witness_TxiFollowsTheFrame_increment :
    let s := { exchanging .frame .cmd [.ok 0x00#8] with
      txbuf := List.replicate 254 0#8, txi := 254#8 }
    ∃ t, s.Inv ∧ step s = .next t ∧ s.rstLow ∧ s.phase = .frame ∧
      s.xferIn = .ok 0x00#8 :: [] ∧ s.txi.toNat < s.txbuf.length + 1 :=
  ⟨_, by decide +kernel, rfl, by decide, rfl, rfl, by decide +kernel⟩
/-- The longest frame, its last byte. -/
theorem witness_TxiFollowsTheFrame_last :
    let s := { exchanging .frame .cmd [.ok 0x00#8] with
      txbuf := List.replicate 254 0#8, txi := 255#8 }
    ∃ t, s.Inv ∧ step s = .next t ∧ s.rstLow ∧ s.phase = .frame ∧
      s.xferIn = .ok 0x00#8 :: [] ∧ s.txi.toNat = s.txbuf.length + 1 :=
  ⟨_, by decide +kernel, rfl, by decide, rfl, rfl, by decide +kernel⟩
theorem witness_TxiFollowsTheFrame_fail :
    let s := exchanging .frame .cmd [.fail]
    ∃ t, s.Inv ∧ step s = .next t ∧ s.rstLow ∧ s.phase = .frame ∧
      (∀ w rest, s.xferIn ≠ .ok w :: rest) :=
  ⟨_, by decide, rfl, by decide, rfl, by intro w rest h; cases h⟩
theorem witness_TxiFollowsTheFrame_fill :
    let s := { exchanging .fill .cmd [.ok 0x00#8] with rem := 1#8, txi := 1#8 }
    ∃ t, s.Inv ∧ step s = .next t ∧ s.rstLow ∧ s.phase ≠ .idle ∧ s.phase ≠ .frame :=
  ⟨_, by decide, rfl, by decide, by decide, by decide⟩
/-- Vector S3's end state, idle with TXI = 3 and TXCNT = 0, meets the invariants. -/
theorem witness_TxiFollowsTheFrame_idle :
    let s := { offered [0x2000#16] [] with txop := 0x08#8, txi := 3#8 }
    ∃ t, s.Inv ∧ step s = .next t ∧ s.rstLow ∧ s.phase = .idle ∧ t.phase = .idle ∧
      s.stat1 = 0x08000300#32 := ⟨_, by decide, rfl, by decide, rfl, rfl, by decide⟩
theorem witness_TxiFollowsTheFrame_reset :
    let s := { exchanging .frame .cmd [] with rstIn := [true], txi := 1#8 }
    ∃ t, s.Inv ∧ step s = .next t ∧ s.rstIn.head? = some true := ⟨_, by decide, rfl, rfl⟩

theorem witness_ExchangeEndsByCompletionOrAbort_completion :
    let s := { exchanging .fill .read [.ok 0xD2#8] with rem := 1#8 }
    ∃ t, s.rstLow ∧ step s = .next t ∧ s.phase ≠ .idle ∧ t.phase = .idle ∧ t.lastErr = .ok :=
  ⟨_, by decide, rfl, by decide, rfl, rfl⟩
theorem witness_ExchangeEndsByCompletionOrAbort_abort :
    let s := exchanging .sync .cmd [.fail]
    ∃ t, s.rstLow ∧ step s = .next t ∧ s.phase ≠ .idle ∧ t.phase = .idle ∧
      t.lastErr = .errTransport := ⟨_, by decide, rfl, by decide, rfl, rfl⟩

theorem witness_SilentTransportLeavesTheCoreStuck_stuck :
    let s := exchanging .sync .cmd []
    s.wireOut = some 0x99#8 ∧ s.xferIn = [] ∧ s.rstIn = [] := by decide
theorem witness_SilentTransportLeavesTheCoreStuck_low :
    let s := { exchanging .fill .read [] with rem := 1#8, rstIn := [false] }
    s.wireOut = some 0x00#8 ∧ s.xferIn = [] ∧ s.rstIn = false :: [] := by decide
theorem witness_SilentTransportLeavesTheCoreStuck_reset :
    let s := { exchanging .frame .cmd [] with rstIn := [true] }
    s.wireOut = some 0x80#8 ∧ s.xferIn = [] ∧ s.rstIn = true :: [] := by decide

theorem witness_IdleCoreWaitsForAWord :
    State.reset.rstLow ∧ State.reset.phase = .idle ∧ State.reset.cmdIn = [] := by decide

theorem witness_OnlyTheListedOperationsWriteState_operations :
    (∃ t, exec .read State.reset = .next t) ∧ usesPx .read = false ∧ startsExchange .read = true ∧
      loadsPayload .read = false ∧ startsExchange .pxstart = false :=
  ⟨⟨_, rfl⟩, rfl, rfl, rfl, rfl⟩
theorem witness_OnlyTheListedOperationsWriteState_steps :
    let s := { exchanging .frame .cmd [.ok 0xC0#8] with awaiting := true }
    ∃ t, s.rstLow ∧ s.phase ≠ .idle ∧ step s = .next t ∧ t.phase ≠ .idle :=
  ⟨_, by decide, by decide, rfl, by decide⟩

theorem witness_LenSrcIsFixed : ∃ t, step { State.reset with rstIn := [true] } = .next t :=
  ⟨_, rfl⟩

theorem witness_PxSeesOnlyItsOwnState :
    usesPx (.pxbyte 0x00#8) = true ∧
      (exchanging .frame .cmd []).cand = (loaded [0x41#8]).cand ∧
      (exchanging .frame .cmd []).ovf = (loaded [0x41#8]).ovf := by decide

theorem witness_ResetValuesAreTheSpecs :
    { exchanging .fill .read [] with rstIn := [true, false] }.rstIn = true :: [false] := by decide
theorem witness_ResetEndsEverythingInOneStep :
    { exchanging .frame .cmd [] with rstIn := [true] }.rstIn = true :: [] := by decide

/-- The largest count. -/
theorem witness_Stat0ShowsItsFields :
    { State.reset with rxbuf := List.replicate 255 0#8 }.Inv := by decide +kernel
/-- The largest counts. -/
theorem witness_Stat1ShowsItsFields :
    { loaded (List.replicate 254 0#8) with cand := List.replicate 255 0x11#8 }.Inv := by
  decide +kernel

theorem witness_DecodeOfEncodeIsIdentity : (Instr.pxbyte 0xAA#8).wellFormed = true := by decide
theorem witness_NoCodeHasAnAlias : decode (.word 0x70AA#16) = .ok (.pxbyte 0xAA#8) := rfl
theorem witness_OpcodesAreTheSix :
    (0x05#8 : Byte) ∉ [0x01#8, 0x02#8, 0x03#8, 0x04#8, 0x07#8, 0x08#8] := by decide
theorem witness_PseudoInstructionsExpand_longest :
    (List.replicate 254 0#8 : List Byte).length ≤ 254 := by decide +kernel
theorem witness_PseudoInstructionsExpand_tooLong :
    254 < (List.replicate 255 0#8 : List Byte).length := by decide +kernel

theorem witness_FrameWordsLoadThePayload :
    let s := { offered [0x2000#16, 0x3007#16, 0x4001#16, 0x5000#16] [] with txbuf := [0x55#8] }
    isCommandOpcode 0x01#8 = true ∧
      expandFrame 0x01#8 [0x07#8] = some [0x2000#16, 0x3007#16, 0x4001#16] ∧
      s.phase = .idle ∧ s.rstIn = [] ∧
      s.cmdIn = [0x2000#16, 0x3007#16, 0x4001#16] ++ [0x5000#16] := by decide

/-- Vector S2. -/
theorem witness_SendExchangeNextAfterSync :
    let s := offered [0x4001#16] (answers [0x5A#8, 3#8, 0xA1#8, 0xA2#8, 0xA3#8] ++ [.fail])
    s.phase = .idle ∧ s.rstIn = [] ∧ s.lenSrc = .nextAfterSync ∧ s.txbuf.length ≤ 254 ∧
      isCommandOpcode 0x01#8 = true ∧ s.cmdIn = (0x4000#16 ||| (0x01#8).setWidth 16) :: [] ∧
      s.xferIn = answers (0x5A#8 :: 3#8 :: [0xA1#8, 0xA2#8, 0xA3#8]) ++ [.fail] ∧
      [0xA1#8, 0xA2#8, 0xA3#8].length + 2 = max (s.txbuf.length + 3) ((3#8).toNat + 2) := by decide

/-- Vector S5. -/
theorem witness_SendExchangeSyncReply :
    let s := { offered [0x4001#16] (answers [4#8, 0xA1#8, 0xA2#8, 0xA3#8, 0xA4#8]) with
      lenSrc := .syncReply }
    s.phase = .idle ∧ s.rstIn = [] ∧ s.lenSrc = .syncReply ∧ s.txbuf.length ≤ 254 ∧
      isCommandOpcode 0x01#8 = true ∧ s.cmdIn = (0x4000#16 ||| (0x01#8).setWidth 16) :: [] ∧
      s.xferIn = answers (4#8 :: [0xA1#8, 0xA2#8, 0xA3#8, 0xA4#8]) ++ [] ∧
      [0xA1#8, 0xA2#8, 0xA3#8, 0xA4#8].length + 1
        = max (s.txbuf.length + 3) ((4#8).toNat + 1) := by decide

/-- Vector R2. -/
theorem witness_ReadExchangeReturnsTheResponse_nextAfterSync :
    let s := offered [0x5000#16] (answers [0x5A#8, 2#8, 0x4F#8, 0x4B#8])
    s.phase = .idle ∧ s.rstIn = [] ∧ s.cmdIn = 0x5000#16 :: [] ∧
      [0x4F#8, 0x4B#8].length = (2#8).toNat ∧ s.lenSrc = .nextAfterSync ∧
      s.xferIn = answers (0x5A#8 :: 2#8 :: [0x4F#8, 0x4B#8]) ++ [] := by decide
/-- Vector R3. -/
theorem witness_ReadExchangeReturnsTheResponse_syncReply :
    let s := { offered [0x5000#16] (answers [0#8]) with lenSrc := .syncReply }
    s.phase = .idle ∧ s.rstIn = [] ∧ s.cmdIn = 0x5000#16 :: [] ∧
      ([] : List Byte).length = (0#8).toNat ∧ s.lenSrc = .syncReply ∧
      s.xferIn = answers (0#8 :: []) ++ [] := by decide

theorem witness_ExchangesEndWithin257Transfers :
    let s := exchanging .sync .cmd (List.replicate 257 (.ok 0x00#8))
    s.Inv ∧ s.phase = .sync ∧ s.rstIn = [] ∧ 257 ≤ s.xferIn.length := by decide +kernel

theorem witness_EveryStepKeepsTheInvariants :
    ∃ t, (exchanging .sync .cmd [.ok 0x5A#8]).Inv ∧
      step (exchanging .sync .cmd [.ok 0x5A#8]) = .next t := ⟨_, by decide, rfl⟩

theorem witness_OnlyASilentTransportStopsTheCore :
    (exchanging .sync .cmd []).Inv ∧
      step (exchanging .sync .cmd []) = .fault .transportSilent := ⟨by decide, rfl⟩

end Sys2Proof.Tests
end

section
/-! SUPPORT. The step of an idle core as an equation: the command port on the state whose level of `rst` has
been taken off (R57, R74). The statements about accepted words start from here. -/

namespace Sys2Proof.Machine

/-- An idle core is never silent, so with `rst` at 0 its step is the command port's (R57). -/
theorem step_of_idle {s : State} (hl : s.rstLow) (hp : s.phase = .idle) :
    step s = acceptNext s.dropRst := by
  obtain hs | ⟨hsilent, -⟩ := step_low hl
  · rw [hs]
    simp only [coreStep, dropRst_phase, hp]
  · have hw : s.dropRst.Waiting := coreStep_silent_inv hsilent
    exact absurd hp hw.1

/-- The word offered first to an idle core is accepted, on the state with it taken off the offers (R57). -/
theorem step_of_offer {s : State} {cw : Word} {rest : List Word} (hl : s.rstLow)
    (hp : s.phase = .idle) (hc : s.cmdIn = cw :: rest) :
    step s = acceptWord cw (takeOffer rest s.dropRst) := by
  rw [step_of_idle hl hp]
  simp only [acceptNext, dropRst_cmdIn, hc]

/-- An accepted word that decodes is executed (R74). -/
theorem acceptWord_of_decode {cw : Word} {i : Instr} (hd : decodeWord cw = .ok i) (s : State) :
    acceptWord cw s = exec i s := by
  simp only [acceptWord, hd]

end Sys2Proof.Machine
end

section
/-! The settled statements about the step of an idle core. -/

namespace Sys2Proof.Proofs

open Sys2Proof.Machine

/-- Settles O23: the step is the acceptance of the word offered first (`step_of_offer`), and accepting a word
that decodes is executing it (`acceptWord_of_decode`). -/
theorem stepRunsTheDecodedCommand : Obligations.StepRunsTheDecodedCommand := by
  intro s cw rest i hl hp hc hd
  calc step s = acceptWord cw (takeOffer rest s.dropRst) := step_of_offer hl hp hc
    _ = exec i (takeOffer rest s.dropRst) := acceptWord_of_decode hd _
    _ = exec i { s with rstIn := s.rstIn.tail, cmdIn := rest } := rfl

end Sys2Proof.Proofs
end

section
/-! SUPPORT. What the transfers of an exchange do to each register, as far as the statements about the state
need it: the fields that receiving a byte, the completion check and an abort leave unchanged, and a step of a
BUSY core as the receive function of its PHASE. -/

namespace Sys2Proof.Machine

/-! ### `rxAccept` -/

@[simp] theorem rxAccept_phase (r : Byte) (s : State) : (rxAccept r s).phase = s.phase := by
  rw [rxAccept_frame]
@[simp] theorem rxAccept_kind (r : Byte) (s : State) : (rxAccept r s).kind = s.kind := by
  rw [rxAccept_frame]
@[simp] theorem rxAccept_txbuf (r : Byte) (s : State) : (rxAccept r s).txbuf = s.txbuf := by
  rw [rxAccept_frame]
@[simp] theorem rxAccept_txop (r : Byte) (s : State) : (rxAccept r s).txop = s.txop := by
  rw [rxAccept_frame]
@[simp] theorem rxAccept_txi (r : Byte) (s : State) : (rxAccept r s).txi = s.txi := by
  rw [rxAccept_frame]
@[simp] theorem rxAccept_cand (r : Byte) (s : State) : (rxAccept r s).cand = s.cand := by
  rw [rxAccept_frame]
@[simp] theorem rxAccept_ovf (r : Byte) (s : State) : (rxAccept r s).ovf = s.ovf := by
  rw [rxAccept_frame]

/-- One received byte ends the wait for the length (R128). -/
@[simp] theorem rxAccept_awaiting (r : Byte) (s : State) : (rxAccept r s).awaiting = false := by
  obtain ⟨-, h⟩ | ⟨ha, -, h⟩ | ⟨ha, -, h⟩ := rxAccept_cases r s
  · rw [h]
  · rw [h]; exact ha
  · rw [h]; exact ha

/-- A byte received after the length moves one count from REM to RXCNT, or is discarded (R40 I-c, R128). -/
theorem rxAccept_conserves (r : Byte) {s : State} (ha : s.awaiting = false) :
    (rxAccept r s).rxbuf.length + (rxAccept r s).rem.toNat = s.rxbuf.length + s.rem.toNat := by
  obtain ⟨ha', -⟩ | ⟨-, hr, h⟩ | ⟨-, -, h⟩ := rxAccept_cases r s
  · simp [ha] at ha'
  · rw [h]
    simp only [List.length_append, List.length_singleton]
    bv_omega
  · rw [h]

/-! ### The completion check and the abort -/

/-- The completion check leaves PX, KIND, TXOP, TXI, LEN_SRC and the inputs as they are (R42, R132). -/
theorem checkComplete_frame (s : State) :
    checkComplete s = { s with
      phase := (checkComplete s).phase, awaiting := (checkComplete s).awaiting,
      rem := (checkComplete s).rem, rxbuf := (checkComplete s).rxbuf,
      txbuf := (checkComplete s).txbuf, lastErr := (checkComplete s).lastErr,
      rsp := (checkComplete s).rsp } := by
  obtain ⟨-, -, -, -, h⟩ | ⟨-, -, -, -, h⟩ | ⟨-, h⟩ := checkComplete_cases s <;> rw [h] <;> rfl

/-- The abort leaves everything as it is but PHASE, the payload, LAST_ERR and the events (R133). -/
theorem abortExchange_frame (s : State) :
    abortExchange s = { s with
      phase := .idle, txbuf := (abortExchange s).txbuf, lastErr := .errTransport,
      rsp := (abortExchange s).rsp } := by
  obtain ⟨-, h⟩ | ⟨-, h⟩ := abortExchange_cases s <;> rw [h] <;> rfl

@[simp] theorem checkComplete_kind (s : State) : (checkComplete s).kind = s.kind := by
  rw [checkComplete_frame]
@[simp] theorem checkComplete_txop (s : State) : (checkComplete s).txop = s.txop := by
  rw [checkComplete_frame]
@[simp] theorem checkComplete_txi (s : State) : (checkComplete s).txi = s.txi := by
  rw [checkComplete_frame]
@[simp] theorem checkComplete_cand (s : State) : (checkComplete s).cand = s.cand := by
  rw [checkComplete_frame]
@[simp] theorem checkComplete_ovf (s : State) : (checkComplete s).ovf = s.ovf := by
  rw [checkComplete_frame]
@[simp] theorem checkComplete_lenSrc (s : State) : (checkComplete s).lenSrc = s.lenSrc := by
  rw [checkComplete_frame]

@[simp] theorem abortExchange_phase (s : State) : (abortExchange s).phase = .idle := by
  rw [abortExchange_frame]
@[simp] theorem abortExchange_kind (s : State) : (abortExchange s).kind = s.kind := by
  rw [abortExchange_frame]
@[simp] theorem abortExchange_txop (s : State) : (abortExchange s).txop = s.txop := by
  rw [abortExchange_frame]
@[simp] theorem abortExchange_txi (s : State) : (abortExchange s).txi = s.txi := by
  rw [abortExchange_frame]
@[simp] theorem abortExchange_cand (s : State) : (abortExchange s).cand = s.cand := by
  rw [abortExchange_frame]
@[simp] theorem abortExchange_ovf (s : State) : (abortExchange s).ovf = s.ovf := by
  rw [abortExchange_frame]
@[simp] theorem abortExchange_lenSrc (s : State) : (abortExchange s).lenSrc = s.lenSrc := by
  rw [abortExchange_frame]
@[simp] theorem abortExchange_lastErr (s : State) : (abortExchange s).lastErr = .errTransport := by
  rw [abortExchange_frame]

/-- After the check the core is still BUSY only when nothing completed (R132). -/
theorem checkComplete_of_busy {s : State} (h : (checkComplete s).phase ≠ .idle) :
    checkComplete s = s := by
  obtain ⟨-, -, -, -, hc⟩ | ⟨-, -, -, -, hc⟩ | ⟨-, hc⟩ := checkComplete_cases s
  · simp [hc] at h
  · simp [hc] at h
  · exact hc

/-! ### Receiving a byte in each PHASE -/

@[simp] theorem phaseAfterSync_ne_idle (k : Kind) : phaseAfterSync k ≠ .idle := by
  cases k <;> simp [phaseAfterSync]
@[simp] theorem phaseAfterSync_ne_sync (k : Kind) : phaseAfterSync k ≠ .sync := by
  cases k <;> simp [phaseAfterSync]
@[simp] theorem phaseAfterSync_eq_frame_iff (k : Kind) : phaseAfterSync k = .frame ↔ k = .cmd := by
  cases k <;> simp [phaseAfterSync]
@[simp] theorem phaseAfterSync_eq_fill_iff (k : Kind) : phaseAfterSync k = .fill ↔ k = .read := by
  cases k <;> simp [phaseAfterSync]

/-- Under NEXT_AFTER_SYNC the sync reply is discarded and the length awaited (R126). -/
theorem syncReceive_of_nextAfterSync (r : Byte) {s : State} (h : s.lenSrc = .nextAfterSync) :
    syncReceive r s = checkComplete { s with awaiting := true, phase := phaseAfterSync s.kind } := by
  simp only [syncReceive, syncAccept, h]

/-- Under SYNC_REPLY the sync reply is the length (R126). -/
theorem syncReceive_of_syncReply (r : Byte) {s : State} (h : s.lenSrc = .syncReply) :
    syncReceive r s = checkComplete
      { s with rem := r, awaiting := false, phase := phaseAfterSync s.kind } := by
  simp only [syncReceive, syncAccept, h]

/-- The FRAME transfer of the last frame byte goes on to FILL (R127). -/
theorem frameReceive_of_last (r : Byte) {s : State} (h : s.txi.toNat = s.txbuf.length + 1) :
    frameReceive r s = checkComplete { rxAccept r s with phase := .fill } := by
  simp only [frameReceive, if_pos h]

/-- Any other FRAME transfer goes on to the next frame byte (R127). -/
theorem frameReceive_of_not_last (r : Byte) {s : State} (h : s.txi.toNat ≠ s.txbuf.length + 1) :
    frameReceive r s = { rxAccept r s with txi := s.txi + 1#8 } := by
  simp only [frameReceive, if_neg h]

/-- What the transfer of a BUSY core does with the byte it receives, by PHASE (R126, R127, R129). -/
def receiveIn : Phase → Byte → State → State
  | .idle => fun _ s => s
  | .sync => syncReceive
  | .frame => frameReceive
  | .fill => fillReceive

/-- A step of a BUSY core with `rst` at 0: waiting, an abort, or what PHASE does with the byte received. -/
theorem transfer_step_cases {s t : State} (hl : s.rstLow) (hb : s.phase ≠ .idle)
    (h : step s = .next t) :
    (s.xferIn = [] ∧ t = s.dropRst) ∨
    (∃ b rest, s.xferIn = .fail :: rest ∧
      t = abortExchange (logTransfer b .fail rest s.dropRst)) ∨
    (∃ b r w rest, s.xferIn = .ok w :: rest ∧
      t = receiveIn s.phase r (logTransfer b (.ok w) rest s.dropRst)) := by
  have answered : ∀ {b : Byte} {onByte : Byte → State → State}, receiveIn s.phase = onByte →
      transfer b onByte s.dropRst = .next t →
      (∃ b rest, s.xferIn = .fail :: rest ∧
        t = abortExchange (logTransfer b .fail rest s.dropRst)) ∨
      (∃ b r w rest, s.xferIn = .ok w :: rest ∧
        t = receiveIn s.phase r (logTransfer b (.ok w) rest s.dropRst)) := by
    rintro b onByte rfl ht
    obtain ⟨w, rest, hx, rfl⟩ | ⟨rest, hx, rfl⟩ := transfer_cases ht
    · exact .inr ⟨_, _, w, rest, hx, rfl⟩
    · exact .inl ⟨_, rest, hx, rfl⟩
  obtain ⟨rest, hr, -⟩ | ⟨-, hp, -⟩ | ⟨-, hp, -⟩ | ⟨-, hp, ht⟩ | ⟨-, hp, b, -, ht⟩ | ⟨-, hp, ht⟩ |
    ⟨-, hw, rfl⟩ := step_cases h
  · exact absurd (by rw [hr]; rfl) hl
  · exact absurd hp hb
  · exact absurd hp hb
  · exact .inr (answered (by rw [hp]; rfl) ht)
  · exact .inr (answered (by rw [hp]; rfl) ht)
  · exact .inr (answered (by rw [hp]; rfl) ht)
  · exact .inl ⟨hw.2, rfl⟩

/-- A step that sees `rst` at 1 is the reset (R203, R231). -/
theorem step_of_reset {s t : State} (hr : s.rstIn.head? = some true) (h : step s = .next t) :
    ∃ rest, t = takeReset { s with rstIn := rest } := by
  obtain ⟨rest, -, rfl⟩ | ⟨hl, -⟩ | ⟨hl, -⟩ | ⟨hl, -⟩ | ⟨hl, -⟩ | ⟨hl, -⟩ | ⟨hl, -⟩ := step_cases h
  · exact ⟨rest, rfl⟩
  all_goals exact absurd hr hl

/-- What an accepted word leaves, in all its cases: a decoded operation, or the one DONE of an illegal word
(R74, R202). -/
theorem acceptWord_next_cases {cw : Word} {s t : State} (h : acceptWord cw s = .next t) :
    (∃ i, exec i s = .next t) ∨ (∃ op, t = emitDone op .errIllegal [] s) := by
  obtain ⟨i, -, ha⟩ | ⟨e, -, ha⟩ := acceptWord_cases cw s
  · exact .inl ⟨i, ha.symm.trans h⟩
  · rw [ha] at h
    injection h with h
    exact .inr ⟨_, h.symm⟩

end Sys2Proof.Machine
end

section
/-! SUPPORT. The invariants of R40 under each operation that a step is made of. -/

namespace Sys2Proof.Machine

/-- The reset state meets the invariants, whatever LEN_SRC (R39, R40). -/
theorem inv_resetWith (src : LenSrc) : (State.resetWith src).Inv := by
  simp [State.Inv, State.BuffersBounded, State.ReceiveBounded, State.PhaseConsistent,
    State.SendConsistent, State.resetWith]

/-- Taking the reset leaves R39's values, and the invariants do not speak of the histories and inputs. -/
theorem inv_takeReset (s : State) : (takeReset s).Inv := inv_resetWith s.lenSrc

/-- Answering writes the events and LAST_ERR, of which no invariant speaks; nor does one speak of the bus, the
inputs or a packet. -/
theorem inv_emitDone {op : Nibble} {st : Status} {data : List Byte} {s : State} :
    (emitDone op st data s).Inv ↔ s.Inv := Iff.rfl

theorem inv_emitPkt {data : List Byte} {s : State} : (emitPkt data s).Inv ↔ s.Inv := Iff.rfl

theorem inv_logTransfer {b : Byte} {r : Reply} {rest : List Reply} {s : State} :
    (logTransfer b r rest s).Inv ↔ s.Inv := Iff.rfl

theorem inv_dropRst {s : State} : s.dropRst.Inv ↔ s.Inv := Iff.rfl

theorem inv_takeOffer {rest : List Word} {s : State} : (takeOffer rest s).Inv ↔ s.Inv := Iff.rfl

/-! ### The operations of an idle core -/

/-- An exchange starts with the ReceiveBuffer and TXI reset (R122), carrying one of the six opcodes if it is
a SEND (R123). -/
theorem inv_startExchange {k : Kind} {s : State} (hbuf : s.BuffersBounded)
    (hop : k = .cmd → isCommandOpcode s.txop = true) : (startExchange k s).Inv := by
  exact ⟨hbuf, by simp [State.ReceiveBounded], by simp [State.PhaseConsistent],
    by simpa [State.SendConsistent] using hop⟩

/-- The payload of an idle core binds no other register: TXI and TXCNT are tied while BUSY only (log 10). -/
theorem inv_of_idle_payload {s : State} (hs : s.Inv) (hp : s.phase = .idle) {payload : List Byte}
    (hlen : payload.length ≤ txMax) : { s with txbuf := payload }.Inv := by
  obtain ⟨⟨-, hcand⟩, hrecv, hphase, -, hsend⟩ := hs
  exact ⟨⟨hlen, hcand⟩, hrecv, hphase, fun hb => absurd hp hb, hsend⟩

/-- The candidate and OVF meet no register outside PX (R42). -/
theorem inv_of_candidate {s : State} (hs : s.Inv) {cand : List Byte} {ovf : Bool}
    (hlen : cand.length ≤ pxMax) (hdelim : ∀ b ∈ cand, b ≠ delim)
    (hovf : ovf = true → cand.length = pxMax) : { s with cand := cand, ovf := ovf }.Inv := by
  obtain ⟨⟨htx, -⟩, hrest⟩ := hs
  exact ⟨⟨htx, hlen, hdelim, hovf⟩, hrest⟩

theorem inv_clearCandidate {s : State} (hs : s.Inv) : (clearCandidate s).Inv :=
  inv_of_candidate hs (by simp) (by simp) (by simp)

/-- An appended byte is no delimiter, and the candidate was not full, so that OVF was 0 (R152). -/
theorem inv_pushCandidate {b : Byte} {s : State} (hs : s.Inv) (hb : b ≠ delim)
    (hlen : s.cand.length < pxMax) : (pushCandidate b s).Inv := by
  obtain ⟨⟨-, -, hdelim, hovf⟩, -⟩ := id hs
  refine inv_of_candidate hs ?_ ?_ ?_
  · simpa using hlen
  · intro c hc
    obtain hc | rfl : c ∈ s.cand ∨ c = b := by simpa using hc
    · exact hdelim c hc
    · exact hb
  · intro ho
    have := hovf ho
    omega

/-- A byte lost to a full candidate sets OVF, where OVF says that the candidate is full (R32, R152). -/
theorem inv_overflow {s : State} (hs : s.Inv) (hfull : pxMax ≤ s.cand.length) :
    { s with ovf := true }.Inv := by
  obtain ⟨⟨-, hlen, hdelim, -⟩, -⟩ := id hs
  exact inv_of_candidate hs hlen hdelim fun _ => le_antisymm hlen hfull

/-- Every operation keeps the invariants of an idle core. -/
theorem inv_exec {i : Instr} {s t : State} (hs : s.Inv) (hp : s.phase = .idle)
    (h : exec i s = .next t) : t.Inv := by
  obtain ⟨hbuf, -⟩ := id hs
  obtain ⟨op, st, data, he⟩ | he | ⟨p, hlen, he⟩ | ⟨c, hc, he⟩ | he | ⟨op, he⟩ | ⟨-, -, he⟩ |
    ⟨b, hb, hlen, he⟩ | ⟨hfull, he⟩ := exec_cases i s <;>
    obtain rfl := Host.Outcome.next.inj (he.symm.trans h)
  · exact inv_emitDone.mpr hs
  · exact inv_emitDone.mpr (inv_of_idle_payload hs hp (Nat.zero_le _))
  · exact inv_emitDone.mpr (inv_of_idle_payload hs hp (by simpa using hlen))
  · exact inv_startExchange (s := { s with txop := c }) hbuf fun _ => hc
  · exact inv_startExchange hbuf nofun
  · exact inv_emitDone.mpr (inv_clearCandidate hs)
  · exact inv_emitDone.mpr (inv_clearCandidate (inv_emitPkt.mpr hs))
  · exact inv_emitDone.mpr (inv_pushCandidate hs hb hlen)
  · exact inv_emitDone.mpr (inv_overflow hs hfull)

/-- Every accepted word keeps the invariants of an idle core. -/
theorem inv_acceptWord {cw : Word} {s t : State} (hs : s.Inv) (hp : s.phase = .idle)
    (h : acceptWord cw s = .next t) : t.Inv := by
  obtain ⟨i, he⟩ | ⟨op, rfl⟩ := acceptWord_next_cases h
  · exact inv_exec hs hp he
  · exact inv_emitDone.mpr hs

/-! ### The transfers of a BUSY core -/

/-- What holds of a state on which the completion check runs: the invariants, but that a FILL may have nothing
left to wait for (R40 I-g), which the check then ends (R132). -/
def State.ReadyForCheck (s : State) : Prop :=
  s.BuffersBounded ∧ s.ReceiveBounded ∧ s.phase ≠ .sync
    ∧ (s.phase = .frame → s.kind = .cmd ∧ (s.awaiting = true → s.txi = 0#8))
    ∧ (s.phase = .fill → s.kind = .cmd → s.awaiting = false) ∧ s.SendConsistent

/-- An idle core meets the invariants when its buffers, and TXI against the last command, do. -/
theorem inv_of_idle {s : State} (hp : s.phase = .idle) (hbuf : s.BuffersBounded)
    (hrecv : s.ReceiveBounded) (hsend : s.txi ≠ 0#8 → s.kind = .cmd ∧ isCommandOpcode s.txop = true) :
    s.Inv :=
  ⟨hbuf, hrecv, by simp [State.PhaseConsistent, hp], by simpa [State.SendConsistent, hp] using hsend⟩

/-- The completion check establishes what a FILL has to wait for, or ends the exchange. -/
theorem inv_checkComplete {s : State} (hs : s.ReadyForCheck) : (checkComplete s).Inv := by
  obtain ⟨hbuf, hrecv, hsync, hframe, hfill, hsend⟩ := hs
  obtain ⟨-, hcand⟩ := id hbuf
  obtain ⟨-, hop, -⟩ := id hsend
  obtain ⟨-, -, -, -, h⟩ | ⟨-, -, -, -, h⟩ | ⟨hwait, h⟩ := checkComplete_cases s <;> rw [h]
  · exact inv_of_idle rfl ⟨Nat.zero_le _, hcand⟩ hrecv hop
  · exact inv_of_idle rfl hbuf (by simp [State.ReceiveBounded]) hop
  · refine ⟨hbuf, hrecv, ⟨fun hp => absurd hp hsync, hframe, fun hp => ?_, hfill⟩, hsend⟩
    cases ha : s.awaiting with
    | true => exact .inl rfl
    | false => exact .inr fun hr => hwait ⟨hp, ha, hr⟩

/-- An abort leaves an idle core, with the payload as it was or cleared (R133). -/
theorem inv_abortExchange {s : State} (hs : s.Inv) : (abortExchange s).Inv := by
  obtain ⟨hbuf, hrecv, -, -, hop, -⟩ := hs
  obtain ⟨-, hcand⟩ := id hbuf
  obtain ⟨-, h⟩ | ⟨-, h⟩ := abortExchange_cases s <;> rw [h]
  · exact inv_of_idle rfl ⟨Nat.zero_le _, hcand⟩ hrecv hop
  · exact inv_of_idle rfl hbuf hrecv hop

/-- A received byte writes none of TXBUF, CAND and OVF (R128). -/
theorem buffersBounded_rxAccept (r : Byte) (s : State) :
    (rxAccept r s).BuffersBounded ↔ s.BuffersBounded := by
  simp [State.BuffersBounded]

/-- A received byte keeps RXCNT + REM within 255: a length starts at most 255 with nothing received (R40 I-d),
and a byte after it leaves the sum (`rxAccept_conserves`). -/
theorem receiveBounded_rxAccept (r : Byte) {s : State} (hs : s.ReceiveBounded) :
    (rxAccept r s).ReceiveBounded := by
  obtain ⟨hsum, hlen⟩ := hs
  refine ⟨?_, by simp⟩
  cases ha : s.awaiting with
  | true =>
    obtain ⟨hnil, -, -⟩ := hlen ha
    have hr : r.toNat ≤ 255 := by bv_omega
    simpa [rxAccept, ha, hnil, rxCap] using hr
  | false => rwa [rxAccept_conserves r ha]

/-- After the sync reply the length is still to come, or is that reply (R126, R131). -/
theorem inv_syncReceive (r : Byte) {s : State} (hs : s.Inv) (hp : s.phase = .sync) :
    (syncReceive r s).Inv := by
  obtain ⟨hbuf, -, ⟨hsync, -⟩, hbound, hop, hcmd⟩ := hs
  obtain ⟨-, hrem, hrx, htxi⟩ := hsync hp
  have hbusy : s.phase ≠ .idle := by simp [hp]
  cases hsrc : s.lenSrc with
  | nextAfterSync =>
    rw [syncReceive_of_nextAfterSync r hsrc]
    exact inv_checkComplete ⟨hbuf, ⟨by simp [hrx, hrem], fun _ => ⟨hrx, hrem, hsrc⟩⟩, by simp,
      by simp [htxi], by simp +contextual, fun _ => hbound hbusy, hop,
      fun _ => hcmd hbusy⟩
  | syncReply =>
    have hr : r.toNat ≤ 255 := by bv_omega
    rw [syncReceive_of_syncReply r hsrc]
    exact inv_checkComplete ⟨hbuf, ⟨by simpa [hrx, rxCap] using hr, by simp⟩, by simp,
      by simp, by simp, fun _ => hbound hbusy, hop, fun _ => hcmd hbusy⟩

/-- A FRAME transfer counts TXI up within the frame, or ends the frame; either way the length is known. -/
theorem inv_frameReceive (r : Byte) {s : State} (hs : s.Inv) (hp : s.phase = .frame) :
    (frameReceive r s).Inv := by
  obtain ⟨hbuf, hrecv, ⟨-, hframe, -⟩, hbound, -, hcmd⟩ := hs
  have hbusy : s.phase ≠ .idle := by simp [hp]
  obtain ⟨hkind, -⟩ := hframe hp
  have hop : isCommandOpcode s.txop = true := hcmd hbusy hkind
  have hle := hbound hbusy
  by_cases hlast : s.txi.toNat = s.txbuf.length + 1
  · rw [frameReceive_of_last r hlast]
    exact inv_checkComplete ⟨(buffersBounded_rxAccept r s).mpr hbuf, receiveBounded_rxAccept r hrecv,
      by simp, by simp, by simp, by simpa using hle, by simp [hkind, hop], by simp [hop]⟩
  · obtain ⟨hlen, -⟩ := id hbuf
    have hnext : (s.txi + 1#8).toNat ≤ s.txbuf.length + 1 := by
      simp only [txMax] at hlen
      bv_omega
    rw [frameReceive_of_not_last r hlast]
    exact ⟨(buffersBounded_rxAccept r s).mpr hbuf, receiveBounded_rxAccept r hrecv,
      by simp [State.PhaseConsistent, hp, hkind], by simpa using fun _ => hnext,
      by simp [hkind, hop], by simp [hop]⟩

/-- A FILL transfer leaves the length known (R129). -/
theorem inv_fillReceive (r : Byte) {s : State} (hs : s.Inv) (hp : s.phase = .fill) :
    (fillReceive r s).Inv := by
  obtain ⟨hbuf, hrecv, -, hsend⟩ := hs
  exact inv_checkComplete ⟨(buffersBounded_rxAccept r s).mpr hbuf, receiveBounded_rxAccept r hrecv,
    by simp [hp], by simp [hp], by simp, by simpa [State.SendConsistent] using hsend⟩

/-- Whatever PHASE does with a received byte keeps the invariants. -/
theorem inv_receiveIn (r : Byte) {s : State} (hs : s.Inv) : (receiveIn s.phase r s).Inv := by
  cases hp : s.phase with
  | idle => exact hs
  | sync => exact inv_syncReceive r hs hp
  | frame => exact inv_frameReceive r hs hp
  | fill => exact inv_fillReceive r hs hp

/-- R40: the invariants are inductive. -/
theorem inv_step {s t : State} (hs : s.Inv) (h : step s = .next t) : t.Inv := by
  by_cases hl : s.rstLow
  · have hs' : s.dropRst.Inv := inv_dropRst.mpr hs
    by_cases hp : s.phase = .idle
    · obtain ⟨-, rfl⟩ | ⟨cw, rest, -, ha⟩ := idle_step_cases hl hp h
      · exact hs'
      · exact inv_acceptWord (inv_takeOffer.mpr hs') hp ha
    · obtain ⟨-, rfl⟩ | ⟨b, rest, -, rfl⟩ | ⟨b, r, w, rest, -, rfl⟩ := transfer_step_cases hl hp h
      · exact hs'
      · exact inv_abortExchange (inv_logTransfer.mpr hs')
      · exact inv_receiveIn r (inv_logTransfer.mpr hs')
  · obtain ⟨rest, rfl⟩ := step_of_reset (not_not.mp hl) h
    exact inv_takeReset _

end Sys2Proof.Machine
end

section
/-! SUPPORT. What a step may write: the operations of the command port by the columns of R42, and the transfers.
LAST_ERR, the events, TXI and LEN_SRC follow from these. -/

namespace Sys2Proof.Machine

/-! ### The operations of the command port -/

/-- An executed operation starts an exchange, writing neither events nor LAST_ERR (R122), or answers: packets
first, then its one DONE, writing TXBUF, CAND, OVF and LAST_ERR at most (R42, R81). -/
theorem exec_starts_or_answers {i : Instr} {s t : State} (h : exec i s = .next t) :
    (∃ k c, t = startExchange k { s with txop := c }) ∨
    (∃ (packets : List (List Byte)) (op : Nibble) (st : Status) (data : List Byte),
      t = { s with
        txbuf := t.txbuf, cand := t.cand, ovf := t.ovf, lastErr := st,
        rsp := s.rsp ++ packets.map .pkt ++ [.done op st data] }) := by
  obtain ⟨op, st, data, he⟩ | he | ⟨p, -, he⟩ | ⟨c, -, he⟩ | he | ⟨op, he⟩ | ⟨-, -, he⟩ |
    ⟨b, -, -, he⟩ | ⟨-, he⟩ := exec_cases i s <;>
    obtain rfl := Host.Outcome.next.inj (he.symm.trans h)
  · exact .inr ⟨[], op, st, data, by simp [emitDone]⟩
  · exact .inr ⟨[], opTxclr, .ok, [], by simp [emitDone, clearPayload]⟩
  · exact .inr ⟨[], opTxpush, .ok, [], by simp [emitDone, pushPayload]⟩
  · exact .inl ⟨.cmd, c, rfl⟩
  · exact .inl ⟨.read, s.txop, rfl⟩
  · exact .inr ⟨[], op, .ok, [], by simp [emitDone, clearCandidate]⟩
  · exact .inr ⟨[s.cand.drop hdrLen], opPxbyte, .ok, [], by
      simp [emitDone, clearCandidate, emitPkt]⟩
  · exact .inr ⟨[], opPxbyte, .ok, [], by simp [emitDone, pushCandidate]⟩
  · exact .inr ⟨[], opPxbyte, .errPxovf, [], by simp [emitDone]⟩

/-- Likewise for an accepted word, an illegal one among them (R202). -/
theorem acceptWord_starts_or_answers {cw : Word} {s t : State} (h : acceptWord cw s = .next t) :
    (∃ k c, t = startExchange k { s with txop := c }) ∨
    (∃ (packets : List (List Byte)) (op : Nibble) (st : Status) (data : List Byte),
      t = { s with
        txbuf := t.txbuf, cand := t.cand, ovf := t.ovf, lastErr := st,
        rsp := s.rsp ++ packets.map .pkt ++ [.done op st data] }) := by
  obtain ⟨i, he⟩ | ⟨op, rfl⟩ := acceptWord_next_cases h
  · exact exec_starts_or_answers he
  · exact .inr ⟨[], op, .errIllegal, [], by simp [emitDone]⟩

/-- PX writes CAND, OVF, LAST_ERR and events at most (R42). -/
theorem exec_of_usesPx {i : Instr} {s t : State} (hi : usesPx i = true) (h : exec i s = .next t) :
    t = { s with cand := t.cand, ovf := t.ovf, lastErr := t.lastErr, rsp := t.rsp } := by
  cases i with
  | pxstart => cases h; rfl
  | pxbyte b =>
    obtain ⟨-, -, -, he⟩ | ⟨-, -, he⟩ | ⟨-, -, he⟩ | ⟨-, -, he⟩ := execPxbyte_cases b s <;>
      obtain rfl := Host.Outcome.next.inj (he.symm.trans h) <;> rfl
  | pxend => cases h; rfl
  | _ => cases hi

/-- TXCLR and TXPUSH write the payload, LAST_ERR and events at most (R42). -/
theorem exec_of_loadsPayload {i : Instr} {s t : State} (hi : loadsPayload i = true)
    (h : exec i s = .next t) :
    t = { s with txbuf := t.txbuf, lastErr := t.lastErr, rsp := t.rsp } := by
  cases i with
  | txclr => cases h; rfl
  | txpush p =>
    simp only [exec, execTxpush] at h
    split at h <;> cases h <;> rfl
  | _ => cases hi

/-- An exchange starter starts the exchange and writes TXOP, READ not even that (R122 to R124, R42). -/
theorem exec_of_startsExchange {i : Instr} {s t : State} (hi : startsExchange i = true)
    (h : exec i s = .next t) :
    ∃ k, t = startExchange k { s with txop := t.txop } ∧ (i = .read → t.txop = s.txop) := by
  cases i with
  | send c =>
    have hc : isCommandOpcode c = true := hi
    simp only [exec, execSend, hc, if_true] at h
    cases h
    exact ⟨_, rfl, nofun⟩
  | read => cases h; exact ⟨_, rfl, fun _ => rfl⟩
  | reset | getState | getVersion | getPacket | sendPacket | setLed =>
    cases h
    exact ⟨_, rfl, nofun⟩
  | _ => cases hi

/-- Any other operation, BREV or a refused SEND, writes LAST_ERR and an event only (R42). -/
theorem exec_of_other {i : Instr} {s t : State} (hpx : usesPx i = false)
    (hload : loadsPayload i = false) (hstart : startsExchange i = false)
    (h : exec i s = .next t) : t = { s with lastErr := t.lastErr, rsp := t.rsp } := by
  cases i with
  | brev a => cases h; rfl
  | send c =>
    have hc : isCommandOpcode c = false := hstart
    simp only [exec, execSend, hc] at h
    cases h
    rfl
  | pxstart | pxbyte | pxend => cases hpx
  | txclr | txpush => cases hload
  | _ => cases hstart

/-- No operation belongs to two of the classes of R42. -/
theorem usesPx_excludes {i : Instr} (hi : usesPx i = true) :
    startsExchange i = false ∧ loadsPayload i = false := by
  cases i with
  | pxstart | pxbyte | pxend => exact ⟨rfl, rfl⟩
  | _ => cases hi

theorem loadsPayload_excludes {i : Instr} (hi : loadsPayload i = true) :
    startsExchange i = false ∧ usesPx i = false := by
  cases i with
  | txclr | txpush => exact ⟨rfl, rfl⟩
  | _ => cases hi

/-! ### The transfers -/

theorem Received.kind_eq {u v : State} (h : Received u v) : v.kind = u.kind := by rw [h.2]
theorem Received.txbuf_eq {u v : State} (h : Received u v) : v.txbuf = u.txbuf := by rw [h.2]
theorem Received.txop_eq {u v : State} (h : Received u v) : v.txop = u.txop := by rw [h.2]
theorem Received.cand_eq {u v : State} (h : Received u v) : v.cand = u.cand := by rw [h.2]
theorem Received.ovf_eq {u v : State} (h : Received u v) : v.ovf = u.ovf := by rw [h.2]
theorem Received.lastErr_eq {u v : State} (h : Received u v) : v.lastErr = u.lastErr := by rw [h.2]
theorem Received.lenSrc_eq {u v : State} (h : Received u v) : v.lenSrc = u.lenSrc := by rw [h.2]
theorem Received.rsp_eq {u v : State} (h : Received u v) : v.rsp = u.rsp := by rw [h.2]

/-- A READ that completes leaves the payload (R132). -/
theorem checkComplete_txbuf_of_read {s : State} (hk : s.kind = .read) :
    (checkComplete s).txbuf = s.txbuf := by
  obtain ⟨-, -, -, hk', -⟩ | ⟨-, -, -, -, h⟩ | ⟨-, h⟩ := checkComplete_cases s
  · simp [hk] at hk'
  · rw [h]; rfl
  · rw [h]

/-- A READ that aborts leaves the payload (R133). -/
theorem abortExchange_txbuf_of_read {s : State} (hk : s.kind = .read) :
    (abortExchange s).txbuf = s.txbuf := by
  obtain ⟨hk', -⟩ | ⟨-, h⟩ := abortExchange_cases s
  · simp [hk] at hk'
  · rw [h]; rfl

/-! ### LEN_SRC -/

/-- R35: no step writes LEN_SRC. -/
theorem step_lenSrc {s t : State} (h : step s = .next t) : t.lenSrc = s.lenSrc := by
  by_cases hl : s.rstLow
  · by_cases hp : s.phase = .idle
    · obtain ⟨-, rfl⟩ | ⟨cw, rest, -, ha⟩ := idle_step_cases hl hp h
      · rfl
      · obtain ⟨k, c, rfl⟩ | ⟨_, _, _, _, ht⟩ := acceptWord_starts_or_answers ha
        · rfl
        · rw [ht]; rfl
    · obtain ⟨-, rfl⟩ | ⟨b, rest, -, -, rfl⟩ | ⟨b, w, rest, v, -, -, hv, rfl⟩ :=
        busy_step_cases hl hp h
      · rfl
      · simp
      · simp [hv.lenSrc_eq]
  · obtain ⟨rest, rfl⟩ := step_of_reset (not_not.mp hl) h
    rfl

/-! ### Events and LAST_ERR -/

/-- What R33 and R207 ask of one step: no answer, or an answer at the end of it, in an idle core. -/
def AnswersAtMostOnce (s t : State) : Prop :=
  (t.rsp = s.rsp ∧ t.lastErr = s.lastErr) ∨
  (∃ (packets : List (List Byte)) (op : Nibble) (data : List Byte),
    t.rsp = s.rsp ++ packets.map .pkt ++ [.done op t.lastErr data] ∧ t.phase = .idle)

/-- Emitting one DONE in an idle core is one answer. -/
theorem answersAtMostOnce_emitDone {s u : State} {op : Nibble} {st : Status} {data : List Byte}
    (hrsp : u.rsp = s.rsp) (hp : u.phase = .idle) : AnswersAtMostOnce s (emitDone op st data u) :=
  .inr ⟨[], op, data, by simp [hrsp], hp⟩

theorem answersAtMostOnce_acceptWord {cw : Word} {s t : State} (hp : s.phase = .idle)
    (h : acceptWord cw s = .next t) : AnswersAtMostOnce s t := by
  obtain ⟨k, c, rfl⟩ | ⟨packets, op, st, data, ht⟩ := acceptWord_starts_or_answers h
  · exact .inl ⟨rfl, rfl⟩
  · have hphase : t.phase = s.phase := by rw [ht]
    have hst : t.lastErr = st := by rw [ht]
    exact .inr ⟨packets, op, data, by rw [hst, ht], hphase.trans hp⟩

theorem answersAtMostOnce_abortExchange {s u : State} (hrsp : u.rsp = s.rsp) :
    AnswersAtMostOnce s (abortExchange u) := by
  obtain ⟨-, h⟩ | ⟨-, h⟩ := abortExchange_cases u <;> rw [h]
  · exact answersAtMostOnce_emitDone hrsp rfl
  · exact answersAtMostOnce_emitDone hrsp rfl

theorem answersAtMostOnce_checkComplete {s v : State} (hrsp : v.rsp = s.rsp)
    (hlast : v.lastErr = s.lastErr) : AnswersAtMostOnce s (checkComplete v) := by
  obtain ⟨-, -, -, -, h⟩ | ⟨-, -, -, -, h⟩ | ⟨-, h⟩ := checkComplete_cases v <;> rw [h]
  · exact answersAtMostOnce_emitDone hrsp rfl
  · exact answersAtMostOnce_emitDone hrsp rfl
  · exact .inl ⟨hrsp, hlast⟩

/-! ### RXCNT + REM -/

/-- What R40 I-c and R135 ask of one step of an exchange whose length is latched. -/
def ConservesResponse (s t : State) : Prop :=
  (t.phase ≠ .idle → t.awaiting = false ∧
    t.rxbuf.length + t.rem.toNat = s.rxbuf.length + s.rem.toNat) ∧
  (t.phase = .idle → t.lastErr = .ok → s.kind = .cmd →
    t.rxbuf.length = s.rxbuf.length + s.rem.toNat)

/-- A completed SEND has REM = 0, so that RXCNT is the whole sum; a READ is no SEND (R132). -/
theorem conservesResponse_checkComplete {s v : State} (hkind : v.kind = s.kind)
    (ha : v.awaiting = false) (hbusy : v.phase ≠ .idle)
    (hsum : v.rxbuf.length + v.rem.toNat = s.rxbuf.length + s.rem.toNat) :
    ConservesResponse s (checkComplete v) := by
  obtain ⟨-, -, hrem, -, h⟩ | ⟨-, -, -, hread, h⟩ | ⟨-, h⟩ := checkComplete_cases v <;> rw [h]
  · exact ⟨by simp, fun _ _ _ => by simpa [hrem] using hsum⟩
  · exact ⟨by simp, fun _ _ hcmd => by simp [← hkind, hread] at hcmd⟩
  · exact ⟨fun _ => ⟨ha, hsum⟩, fun hp => absurd hp hbusy⟩

theorem conservesResponse_frameReceive (r : Byte) {s : State} (hp : s.phase = .frame)
    (ha : s.awaiting = false) : ConservesResponse s (frameReceive r s) := by
  by_cases hlast : s.txi.toNat = s.txbuf.length + 1
  · rw [frameReceive_of_last r hlast]
    exact conservesResponse_checkComplete (by simp) (by simp) (by simp) (rxAccept_conserves r ha)
  · rw [frameReceive_of_not_last r hlast]
    exact ⟨fun _ => ⟨by simp, rxAccept_conserves r ha⟩, by simp [hp]⟩

theorem conservesResponse_fillReceive (r : Byte) {s : State} (hp : s.phase = .fill)
    (ha : s.awaiting = false) : ConservesResponse s (fillReceive r s) :=
  conservesResponse_checkComplete (by simp) (by simp) (by simp [hp]) (rxAccept_conserves r ha)

/-- An aborted exchange answers ERR_TRANSPORT, so it completes nothing (R133). -/
theorem conservesResponse_abortExchange (s u : State) : ConservesResponse s (abortExchange u) :=
  ⟨by simp, by simp⟩

end Sys2Proof.Machine
end

section
/-! SUPPORT. TXI: an exchange start and a reset write 0, a FRAME transfer before the last counts one up, and
nothing else writes it (R30). -/

namespace Sys2Proof.Machine

/-- A step of an idle core starts an exchange with TXI at 0, or leaves TXI (R122). -/
theorem idle_step_txi {s t : State} (hl : s.rstLow) (hp : s.phase = .idle)
    (h : step s = .next t) :
    (t.phase = .idle ∧ t.txi = s.txi) ∨ (t.phase ≠ .idle ∧ t.txi = 0#8) := by
  obtain ⟨-, rfl⟩ | ⟨cw, rest, -, ha⟩ := idle_step_cases hl hp h
  · exact .inl ⟨hp, rfl⟩
  · obtain ⟨k, c, rfl⟩ | ⟨_, _, _, _, ht⟩ := acceptWord_starts_or_answers ha
    · exact .inr ⟨by simp, rfl⟩
    · have hphase : t.phase = s.phase := by rw [ht]; rfl
      exact .inl ⟨hphase.trans hp, by rw [ht]; rfl⟩

@[simp] theorem syncReceive_txi (r : Byte) (s : State) : (syncReceive r s).txi = s.txi := by
  cases h : s.lenSrc with
  | nextAfterSync => simp [syncReceive_of_nextAfterSync r h]
  | syncReply => simp [syncReceive_of_syncReply r h]

@[simp] theorem fillReceive_txi (r : Byte) (s : State) : (fillReceive r s).txi = s.txi := by
  simp [fillReceive]

/-- Outside FRAME no transfer writes TXI (R30). -/
theorem receiveIn_txi_of_not_frame (r : Byte) {p : Phase} (s : State) (hp : p ≠ .frame) :
    (receiveIn p r s).txi = s.txi := by
  cases p with
  | idle => rfl
  | sync => exact syncReceive_txi r s
  | frame => exact absurd rfl hp
  | fill => exact fillReceive_txi r s

/-- The completion check never leads into FRAME (R132). -/
theorem checkComplete_ne_frame {s : State} (h : s.phase ≠ .frame) :
    (checkComplete s).phase ≠ .frame := by
  obtain ⟨-, -, -, -, hc⟩ | ⟨-, -, -, -, hc⟩ | ⟨-, hc⟩ := checkComplete_cases s <;> rw [hc]
  · simp
  · simp
  · exact h

/-- Only a byte received in FRAME writes TXI during an exchange (R30). -/
theorem busy_step_txi {s t : State} (hl : s.rstLow) (hb : s.phase ≠ .idle)
    (h : step s = .next t) (hno : s.phase ≠ .frame ∨ ∀ w rest, s.xferIn ≠ .ok w :: rest) :
    t.txi = s.txi := by
  obtain ⟨-, rfl⟩ | ⟨b, rest, -, rfl⟩ | ⟨b, r, w, rest, hx, rfl⟩ := transfer_step_cases hl hb h
  · rfl
  · simp
  · obtain hp | hx' := hno
    · exact receiveIn_txi_of_not_frame r _ hp
    · exact absurd hx (hx' w rest)

/-- A byte received in FRAME runs R127 on it. -/
theorem frame_step_of_answer {s t : State} {w : Byte} {rest : List Reply} (hl : s.rstLow)
    (hp : s.phase = .frame) (hx : s.xferIn = .ok w :: rest) (h : step s = .next t) :
    ∃ b r, t = frameReceive r (logTransfer b (.ok w) rest s.dropRst) := by
  obtain ⟨hx', -⟩ | ⟨b, rest', hx', -⟩ | ⟨b, r, w', rest', hx', rfl⟩ :=
    transfer_step_cases hl (by simp [hp]) h <;> rw [hx] at hx'
  · cases hx'
  · cases hx'
  · cases hx'
    exact ⟨b, r, by rw [hp]; rfl⟩

/-- Before the last frame byte TXI counts one up, within the frame and so without wrapping (R127). -/
theorem frame_step_before_last {s t : State} {w : Byte} {rest : List Reply} (hl : s.rstLow)
    (hp : s.phase = .frame) (hx : s.xferIn = .ok w :: rest) (h : step s = .next t)
    (hlen : s.txbuf.length ≤ txMax) (hlt : s.txi.toNat < s.txbuf.length + 1) :
    t.phase = .frame ∧ t.txi.toNat = s.txi.toNat + 1 := by
  obtain ⟨b, r, rfl⟩ := frame_step_of_answer hl hp hx h
  rw [frameReceive_of_not_last r (by simpa using hlt.ne)]
  refine ⟨by simpa using hp, ?_⟩
  simp only [txMax] at hlen
  simp only [logTransfer_txi, dropRst_txi]
  bv_omega

/-- The last frame byte ends FRAME and leaves TXI (R127). -/
theorem frame_step_last {s t : State} {w : Byte} {rest : List Reply} (hl : s.rstLow)
    (hp : s.phase = .frame) (hx : s.xferIn = .ok w :: rest) (h : step s = .next t)
    (hlast : s.txi.toNat = s.txbuf.length + 1) : t.phase ≠ .frame ∧ t.txi = s.txi := by
  obtain ⟨b, r, rfl⟩ := frame_step_of_answer hl hp hx h
  rw [frameReceive_of_last r (by simpa using hlast)]
  exact ⟨checkComplete_ne_frame (by simp), by simp⟩

/-- In every step of an exchange, the one that ends it among them, TXI stays within the frame it sends
(R30, R40 I-e). -/
theorem busy_step_txi_le {s t : State} (hs : s.Inv) (hl : s.rstLow) (hb : s.phase ≠ .idle)
    (h : step s = .next t) : t.txi.toNat ≤ s.txbuf.length + 1 := by
  obtain ⟨⟨hlen, -⟩, -, -, hbound, -⟩ := hs
  have hle := hbound hb
  by_cases hf : s.phase = .frame ∧ ∃ w rest, s.xferIn = .ok w :: rest
  · obtain ⟨hp, w, rest, hx⟩ := hf
    obtain hlt | hlast := hle.lt_or_eq
    · obtain ⟨-, htxi⟩ := frame_step_before_last hl hp hx h hlen hlt
      omega
    · obtain ⟨-, htxi⟩ := frame_step_last hl hp hx h hlast
      rwa [htxi]
  · have hno : s.phase ≠ .frame ∨ ∀ w rest, s.xferIn ≠ .ok w :: rest := by
      simpa [imp_iff_not_or] using hf
    rwa [busy_step_txi hl hb h hno]

/-- While BUSY, after a READ and before any SEND, TXI is within the state's own payload: outside an exchange
TXI differs from 0 only after a SEND of one of the six opcodes, and 0x00 is none of them. -/
theorem txi_le_of_inv {s : State} (hs : s.Inv)
    (h : s.phase ≠ .idle ∨ s.kind = .read ∨ s.txop = 0x00#8) :
    s.txi.toNat ≤ s.txbuf.length + 1 := by
  obtain ⟨-, -, -, hbound, hop, -⟩ := hs
  by_cases hz : s.txi = 0#8
  · simp [hz]
  · obtain ⟨hcmd, hsix⟩ := hop hz
    obtain hb | hread | hzero := h
    · exact hbound hb
    · simp [hcmd] at hread
    · rw [hzero] at hsix
      exact absurd hsix (by decide)

end Sys2Proof.Machine
end

section
/-! SUPPORT. PX answers from CAND and OVF alone: PXBYTE's four outcomes as equations, each under a condition on
CAND, OVF and its operand. -/

namespace Sys2Proof.Machine

/-- What a PX operation makes of a candidate and OVF: their next values, a status, and the events. -/
structure PxAnswer where
  cand : List Byte
  ovf : Bool
  st : Status
  events : List Event

/-- The state answers as `a` says. -/
def PxAnswers (i : Instr) (s : State) (a : PxAnswer) : Prop :=
  ∃ t, exec i s = .next t ∧ t.cand = a.cand ∧ t.ovf = a.ovf ∧ t.lastErr = a.st ∧
    t.rsp = s.rsp ++ a.events

/-- A delimiter ends a candidate with something after its header as a packet (R152, R153). -/
theorem execPxbyte_of_packet {b : Byte} {s : State} (hb : b = delim) (ho : s.ovf = false)
    (hlen : hdrLen < s.cand.length) : execPxbyte b s =
      .next (emitDone opPxbyte .ok [] (clearCandidate (emitPkt (s.cand.drop hdrLen) s))) := by
  simp [execPxbyte, emitCandidate, hb, ho, hlen]

/-- A delimiter drops any other candidate (R152). -/
theorem execPxbyte_of_no_packet {b : Byte} {s : State} (hb : b = delim)
    (h : ¬ (s.ovf = false ∧ hdrLen < s.cand.length)) :
    execPxbyte b s = .next (emitDone opPxbyte .ok [] (clearCandidate s)) := by
  simp only [execPxbyte, emitCandidate, if_pos hb, if_neg h]

/-- Any other byte is appended while there is room (R152). -/
theorem execPxbyte_of_room {b : Byte} {s : State} (hb : b ≠ delim) (hlen : s.cand.length < pxMax) :
    execPxbyte b s = .next (emitDone opPxbyte .ok [] (pushCandidate b s)) := by
  simp only [execPxbyte, if_neg hb, if_pos hlen]

/-- And is lost when there is none (R152). -/
theorem execPxbyte_of_full {b : Byte} {s : State} (hb : b ≠ delim) (hlen : ¬ s.cand.length < pxMax) :
    execPxbyte b s = .next (emitDone opPxbyte .errPxovf [] { s with ovf := true }) := by
  simp only [execPxbyte, if_neg hb, if_neg hlen, raiseStatus_eq]

/-- D22: every PX operation has one answer for all states with the same CAND and OVF. -/
theorem px_answer_of_candidate {i : Instr} (hi : usesPx i = true) (cand : List Byte) (ovf : Bool) :
    ∃ a, ∀ s : State, s.cand = cand → s.ovf = ovf → PxAnswers i s a := by
  cases i with
  | pxstart => exact ⟨⟨[], false, .ok, _⟩, fun s _ _ => ⟨_, rfl, rfl, rfl, rfl, rfl⟩⟩
  | pxend => exact ⟨⟨[], false, .ok, _⟩, fun s _ _ => ⟨_, rfl, rfl, rfl, rfl, rfl⟩⟩
  | pxbyte b =>
    by_cases hb : b = delim
    · by_cases h : ovf = false ∧ hdrLen < cand.length
      · refine ⟨⟨[], false, .ok, [.pkt (cand.drop hdrLen), .done opPxbyte .ok []]⟩, ?_⟩
        rintro s rfl rfl
        obtain ⟨ho, hlen⟩ := h
        exact ⟨_, execPxbyte_of_packet hb ho hlen, rfl, rfl, rfl, by simp⟩
      · refine ⟨⟨[], false, .ok, [.done opPxbyte .ok []]⟩, ?_⟩
        rintro s rfl rfl
        exact ⟨_, execPxbyte_of_no_packet hb h, rfl, rfl, rfl, rfl⟩
    · by_cases h : cand.length < pxMax
      · refine ⟨⟨cand ++ [b], ovf, .ok, [.done opPxbyte .ok []]⟩, ?_⟩
        rintro s rfl rfl
        exact ⟨_, execPxbyte_of_room hb h, rfl, rfl, rfl, rfl⟩
      · refine ⟨⟨cand, true, .errPxovf, [.done opPxbyte .errPxovf []]⟩, ?_⟩
        rintro s rfl rfl
        exact ⟨_, execPxbyte_of_full hb h, rfl, rfl, rfl, rfl⟩
  | _ => cases hi

end Sys2Proof.Machine
end

section
/-! SUPPORT. The fields of the status words: each is what is left of its word when the fields above it and the
bits below it are taken off (R36, R37). -/

namespace Sys2Proof.Machine

theorem stat0_fields (s : State) :
    s.stat0.extractLsb' 0 1 = BitVec.ofBool s.busy ∧
    s.stat0.extractLsb' 1 2 = phaseCode s.phase ∧
    s.stat0.extractLsb' 3 1 = kindCode s.kind ∧
    s.stat0.extractLsb' 4 1 = BitVec.ofBool s.awaiting ∧
    s.stat0.extractLsb' 5 1 = BitVec.ofBool s.ovf ∧
    s.stat0.extractLsb' 6 1 = lenSrcCode s.lenSrc ∧
    s.stat0.extractLsb' 7 1 = 0#1 ∧
    s.stat0.extractLsb' 8 4 = statusCode s.lastErr ∧
    s.stat0.extractLsb' 12 4 = 0#4 ∧
    s.stat0.extractLsb' 16 8 = s.rem ∧
    s.stat0.extractLsb' 24 8 = s.rxcnt := by
  unfold State.stat0
  refine ⟨?busy, ?_, ?_, ?_, ?_, ?_, ?_, ?_, ?_, ?_, ?_⟩ <;>
    repeat rw [BitVec.extractLsb'_append_eq_of_add_le (by omega)]
  case busy => exact BitVec.extractLsb'_eq_self
  all_goals exact BitVec.extractLsb'_append_eq_left

theorem stat1_fields (s : State) :
    s.stat1.extractLsb' 0 8 = s.txcnt ∧ s.stat1.extractLsb' 8 8 = s.txi ∧
    s.stat1.extractLsb' 16 8 = s.ccnt ∧ s.stat1.extractLsb' 24 8 = s.txop := by
  unfold State.stat1
  refine ⟨?txcnt, ?_, ?_, ?_⟩ <;>
    repeat rw [BitVec.extractLsb'_append_eq_of_add_le (by omega)]
  case txcnt => exact BitVec.extractLsb'_eq_self
  all_goals exact BitVec.extractLsb'_append_eq_left

/-- A step that sees `rst` at 1 takes the reset (R231). -/
theorem step_eq_takeReset {s : State} {rest : List Bool} (h : s.rstIn = true :: rest) :
    step s = .next (takeReset { s with rstIn := rest }) := by
  simp only [step, cycle, h]

end Sys2Proof.Machine
end

section
/-! The settled statements about the machine's state: its reset, its invariants, which step writes what, and the
status words. -/

namespace Sys2Proof.Proofs

open Sys2Proof.Machine

/-- Settles O57: the reset establishes the invariants, and each operation a step is made of keeps them
(`inv_step`). -/
theorem everyStepKeepsTheInvariants : Obligations.EveryStepKeepsTheInvariants :=
  fun _ _ hs h => inv_step hs h

/-- Settles O30: an accepted word answers or starts an exchange, an abort answers, and the completion check
answers when the exchange is over. -/
theorem lastErrIsTheLatestStatus : Obligations.LastErrIsTheLatestStatus := by
  intro s t hl h
  by_cases hp : s.phase = .idle
  · obtain ⟨-, rfl⟩ | ⟨cw, rest, -, ha⟩ := idle_step_cases hl hp h
    · exact .inl ⟨rfl, rfl⟩
    · exact answersAtMostOnce_acceptWord (s := takeOffer rest s.dropRst) hp ha
  · obtain ⟨-, rfl⟩ | ⟨b, rest, -, -, rfl⟩ | ⟨b, w, rest, v, -, -, hv, rfl⟩ :=
      busy_step_cases hl hp h
    · exact .inl ⟨rfl, rfl⟩
    · exact answersAtMostOnce_abortExchange rfl
    · exact answersAtMostOnce_checkComplete hv.rsp_eq hv.lastErr_eq

/-- Settles O33: a received byte moves one count from REM to RXCNT (`rxAccept_conserves`), and a SEND completes
with REM at 0. -/
theorem receivedPlusRemainingIsConserved : Obligations.ReceivedPlusRemainingIsConserved := by
  intro s t hl hp ha h
  have hbusy : s.phase ≠ .idle := by rintro hi; simp [hi] at hp
  obtain ⟨-, rfl⟩ | ⟨b, rest, -, rfl⟩ | ⟨b, r, w, rest, -, rfl⟩ := transfer_step_cases hl hbusy h
  · exact ⟨fun _ => ⟨ha, rfl⟩, fun hi => absurd hi hbusy⟩
  · exact conservesResponse_abortExchange s _
  · obtain hp | hp := hp <;> rw [hp]
    · exact conservesResponse_frameReceive r (s := logTransfer b (.ok w) rest s.dropRst) hp ha
    · exact conservesResponse_fillReceive r (s := logTransfer b (.ok w) rest s.dropRst) hp ha

/-- Settles O37: by the classes of R42 for the operations, and by what a received byte and the end of an exchange
leave unchanged for the transfers. -/
theorem onlyTheListedOperationsWriteState : Obligations.OnlyTheListedOperationsWriteState := by
  refine ⟨fun i s t h => ?_, fun s t hl hb h => ?_⟩
  · cases hpx : usesPx i with
    | true =>
      obtain ⟨hstart, hload⟩ := usesPx_excludes hpx
      rw [exec_of_usesPx hpx h, hstart]
      exact ⟨nofun, fun _ => ⟨rfl, rfl, rfl, rfl, rfl, rfl, rfl⟩, nofun, fun _ => rfl, fun _ => rfl⟩
    | false =>
      cases hload : loadsPayload i with
      | true =>
        obtain ⟨hstart, -⟩ := loadsPayload_excludes hload
        rw [exec_of_loadsPayload hload h, hstart]
        exact ⟨fun _ => ⟨rfl, rfl⟩, fun _ => ⟨rfl, rfl, rfl, rfl, rfl, rfl, rfl⟩, nofun, nofun,
          fun _ => rfl⟩
      | false =>
        cases hstart : startsExchange i with
        | true =>
          obtain ⟨k, ht, hread⟩ := exec_of_startsExchange hstart h
          refine ⟨fun _ => ?_, nofun, fun _ => ?_, fun _ => ?_, hread⟩ <;> rw [ht]
          · exact ⟨rfl, rfl⟩
          · exact ⟨rfl, rfl⟩
          · rfl
        | false =>
          rw [exec_of_other hpx hload hstart h]
          exact ⟨fun _ => ⟨rfl, rfl⟩, fun _ => ⟨rfl, rfl, rfl, rfl, rfl, rfl, rfl⟩, nofun,
            fun _ => rfl, fun _ => rfl⟩
  · obtain ⟨-, rfl⟩ | ⟨b, rest, -, -, rfl⟩ | ⟨b, w, rest, v, -, -, hv, rfl⟩ :=
      busy_step_cases hl hb h
    · exact ⟨rfl, rfl, rfl, rfl, fun _ => rfl, fun _ => ⟨rfl, rfl, rfl⟩⟩
    · exact ⟨by simp, by simp, by simp, by simp,
        abortExchange_txbuf_of_read (s := logTransfer b .fail rest s.dropRst), by simp⟩
    · refine ⟨by simp [hv.kind_eq], by simp [hv.txop_eq], by simp [hv.cand_eq],
        by simp [hv.ovf_eq], fun hread => ?_, fun hbusy => ?_⟩
      · rw [checkComplete_txbuf_of_read (hv.kind_eq.trans hread)]
        exact hv.txbuf_eq
      · rw [checkComplete_of_busy hbusy]
        exact ⟨hv.txbuf_eq, hv.lastErr_eq, hv.rsp_eq⟩

/-- Settles O39. -/
theorem lenSrcIsFixed : Obligations.LenSrcIsFixed := fun _ _ h => step_lenSrc h

/-- Settles O40: the answer of a PX operation is one for all states with the same CAND and OVF
(`px_answer_of_candidate`). -/
theorem pxSeesOnlyItsOwnState : Obligations.PxSeesOnlyItsOwnState := by
  intro i s₁ s₂ hi hcand hovf
  obtain ⟨a, ha⟩ := px_answer_of_candidate hi s₂.cand s₂.ovf
  obtain ⟨t₁, h₁, hc₁, ho₁, hl₁, hr₁⟩ := ha s₁ hcand hovf
  obtain ⟨t₂, h₂, hc₂, ho₂, hl₂, hr₂⟩ := ha s₂ rfl rfl
  exact ⟨t₁, t₂, a.events, h₁, h₂, hc₁.trans hc₂.symm, ho₁.trans ho₂.symm, hl₁.trans hl₂.symm,
    hr₁, hr₂⟩

/-- Settles O59: clause by clause, the last from the invariants of the state after the step. -/
theorem txiFollowsTheFrame : Obligations.TxiFollowsTheFrame := by
  intro s t hs h
  obtain ⟨⟨hlen, -⟩, -⟩ := id hs
  refine ⟨?reset, ?start, ?idle, ?other, ?frame, ?silent, ?bound, txi_le_of_inv (inv_step hs h)⟩
  case reset =>
    intro hr
    obtain ⟨rest, rfl⟩ := step_of_reset hr h
    rfl
  case start =>
    intro hp ht
    by_cases hl : s.rstLow
    · obtain ⟨hi, -⟩ | ⟨-, htxi⟩ := idle_step_txi hl hp h
      · exact absurd hi ht
      · exact htxi
    · obtain ⟨rest, rfl⟩ := step_of_reset (not_not.mp hl) h
      rfl
  case idle =>
    intro hl hp ht
    obtain ⟨-, htxi⟩ | ⟨hb, -⟩ := idle_step_txi hl hp h
    · exact htxi
    · exact absurd ht hb
  case other => exact fun hl hb hp => busy_step_txi hl hb h (.inl hp)
  case frame =>
    exact fun w rest hl hp hx =>
      ⟨frame_step_before_last hl hp hx h hlen, frame_step_last hl hp hx h⟩
  case silent => exact fun hl hp hx => busy_step_txi hl (by simp [hp]) h (.inr hx)
  case bound => exact fun hl hb => busy_step_txi_le hs hl hb h

/-- Settles O36: the step of an idle core is its command port's (`step_of_idle`), with nothing offered. -/
theorem idleCoreWaitsForAWord : Obligations.IdleCoreWaitsForAWord := by
  intro s hl hp hc
  rw [step_of_idle hl hp]
  simp only [acceptNext, dropRst_cmdIn, hc]

/-- Settles O41: the reset state's fields as they stand in its definition, and the reset's step as an equation
(`step_eq_takeReset`). -/
theorem resetValuesAreTheSpecs : Obligations.ResetValuesAreTheSpecs := by
  refine ⟨fun src => ?_, fun s rest hr => ⟨_, step_eq_takeReset hr, rfl⟩, rfl⟩
  exact ⟨rfl, rfl, rfl, rfl, rfl, rfl, rfl, rfl, rfl, rfl, rfl, rfl, rfl, rfl⟩

/-- Settles O43: the fields in the model's codes (`stat0_fields`), each code by its cases. -/
theorem stat0ShowsItsFields : Obligations.Stat0ShowsItsFields := by
  refine ⟨fun s => ?_, by decide, by decide⟩
  obtain ⟨hbusy, hphase, hkind, hawait, hovf, hsrc, hres, hlast, hrsv, hrem, hrx⟩ := stat0_fields s
  refine ⟨rfl, hbusy, busy_iff s, rfl, hphase.trans ?_, hkind.trans ?_, hawait, hovf, hsrc.trans ?_,
    hres, hlast.trans ?_, hrsv, hrem, hrx, ?_⟩
  · cases s.phase <;> rfl
  · cases s.kind <;> rfl
  · cases s.lenSrc <;> rfl
  · cases s.lastErr <;> rfl
  · rintro ⟨-, ⟨hsum, -⟩, -⟩
    rw [hrx]
    exact rxcnt_toNat (Nat.le_of_add_right_le hsum)

/-- Settles O44: the fields (`stat1_fields`), and the counts exact within the buffers' capacities. -/
theorem stat1ShowsItsFields : Obligations.Stat1ShowsItsFields := by
  refine ⟨fun s => ?_, fun src => by cases src <;> decide⟩
  obtain ⟨htx, htxi, hc, htxop⟩ := stat1_fields s
  refine ⟨rfl, htx, htxi, hc, htxop, ?_⟩
  rintro ⟨⟨htxlen, hclen, -⟩, -⟩
  exact ⟨by rw [htx, txcnt_toNat htxlen], by rw [hc, ccnt_toNat hclen]⟩

/-- Settles O56: field by field (`inv_resetWith`). -/
theorem resetMeetsTheInvariants : Obligations.ResetMeetsTheInvariants := inv_resetWith

end Sys2Proof.Proofs
end

section
/-! SUPPORT. A table row's bits placed for fetching (log 5, log 6): the word that carries a code decodes to an
instruction that does what the code's own does, and the state it is placed in is an idle core with `rst` at 0
and that word offered first. -/

namespace Sys2Proof.Machine

/-! ### The word that carries a code -/

/-- A byte that decodes is one of the six opcodes, and its frame command starts the exchange of the SEND with
that ARG (R90, R170). -/
theorem exec_of_decodeOpcode {c : Byte} {i : Instr} (hd : decodeOpcode c = .ok i) :
    isCommandOpcode c = true ∧ ∀ s, exec i s = .next (startSend c s) := by
  unfold decodeOpcode at hd
  split_ifs at hd with hc hc hc hc hc hc <;> cases hd <;> subst hc
  all_goals exact ⟨rfl, fun _ => rfl⟩

/-- A SEND of one of the six opcodes starts its exchange (R123). -/
theorem exec_send_of_isCommandOpcode {c : Byte} (hc : isCommandOpcode c = true) (s : State) :
    exec (.send c) s = .next (startSend c s) := by
  simp only [exec, execSend, hc, if_true]

/-- Accepting the word that carries a code is executing the instruction the code decodes to (R74, R170). -/
theorem acceptWord_carrier {code : Code} {i : Instr} (hd : decode code = .ok i) (s : State) :
    acceptWord code.carrier s = exec i s := by
  cases code with
  | word cw => exact acceptWord_of_decode hd s
  | opcode c =>
    obtain ⟨hc, hexec⟩ := exec_of_decodeOpcode hd
    have hsend : decodeWord (makeWord opSend c) = .ok (.send c) := decodeWord_makeWord opSend c
    calc acceptWord (makeWord opSend c) s = exec (.send c) s := acceptWord_of_decode hsend s
      _ = .next (startSend c s) := exec_send_of_isCommandOpcode hc s
      _ = exec i s := (hexec s).symm

/-- A table row's bits that decode stand for a code that decodes to the same instruction. -/
theorem codeOfBits_of_decodeTableWord {nbits w : Nat} {i : Instr}
    (h : decodeTableWord nbits w = some i) :
    ∃ code, codeOfBits nbits w = some code ∧ decode code = .ok i := by
  unfold decodeTableWord at h
  split at h
  · rename_i code hcode
    refine ⟨code, hcode, ?_⟩
    cases hd : decode code with
    | ok j => rw [hd] at h; cases h; rfl
    | error e => rw [hd] at h; cases h
  · cases h

/-! ### The state a word is placed in -/

@[simp] theorem lowReset_tail (rst : List Bool) : (lowReset rst).tail = rst.tail := by
  cases rst <;> rfl

/-- A word is placed with `rst` at 0 in the coming step (R20). -/
theorem offerWord_rstLow (cw : Word) (s : State) : (offerWord cw s).rstLow := by
  have hhead : (lowReset s.rstIn).head? ≠ some true := by cases s.rstIn <;> simp [lowReset]
  exact hhead

/-- Taking the placed word and the level of `rst` off again leaves the state as it was, but idle. -/
theorem takeOffer_dropRst_offerWord (cw : Word) (s : State) :
    takeOffer s.cmdIn (offerWord cw s).dropRst
      = { s with rstIn := s.rstIn.tail, phase := .idle } := by
  simp only [takeOffer, State.dropRst, offerWord, lowReset_tail]

/-- A placed word is accepted in the very next step (log 5). -/
theorem step_offerWord (cw : Word) (s : State) :
    step (offerWord cw s)
      = acceptWord cw { s with rstIn := s.rstIn.tail, phase := .idle } := by
  rw [step_of_offer (offerWord_rstLow cw s) rfl rfl, takeOffer_dropRst_offerWord]

/-- Bits that stand for a code are placed as the word that carries it (log 5, log 6). -/
theorem withFetchWord_of_codeOfBits {nbits w : Nat} {code : Code}
    (h : codeOfBits nbits w = some code) (s : State) :
    s.withFetchWord nbits w = offerWord code.carrier s := by
  simp only [State.withFetchWord, offerBits, h]

end Sys2Proof.Machine
end

section
/-! The settled statement about a placed table row. -/

namespace Sys2Proof.Proofs

open Sys2Proof.Machine

/-- Settles O25: the bits are placed as the word that carries their code (`withFetchWord_of_codeOfBits`), the
next step accepts that word (`step_offerWord`), and accepting it is executing the instruction the code decodes
to (`acceptWord_carrier`). -/
theorem placedWordRunsNext : Obligations.PlacedWordRunsNext := by
  intro s nbits w i h
  obtain ⟨code, hcode, hd⟩ := codeOfBits_of_decodeTableWord h
  calc step (s.withFetchWord nbits w)
      = step (offerWord code.carrier s) := by rw [withFetchWord_of_codeOfBits hcode]
    _ = acceptWord code.carrier { s with rstIn := s.rstIn.tail, phase := .idle } :=
        step_offerWord _ s
    _ = exec i { s with rstIn := s.rstIn.tail, phase := .idle } := acceptWord_carrier hd _

end Sys2Proof.Proofs
end

section
/-! SUPPORT. The decoder and the encoder against each other: a code that decodes is the one the encoder writes, and
a word decodes exactly when it is legal (R73, R74). -/

namespace Sys2Proof

open Machine

/-! ### Decode and encode -/

/-- Decoding undoes encoding: a word by its OP and ARG (`decodeWord_makeWord`), a frame opcode by its value. -/
theorem decode_encode (i : Instr) : decode (encode i) = .ok i := by
  cases i with
  | brev | txclr | txpush | send | read | pxstart | pxbyte | pxend =>
    exact decodeWord_makeWord _ _
  | reset | getState | getVersion | getPacket | sendPacket | setLed => rfl

/-- The operation that OP and ARG decode to is encoded with that OP and ARG; one without an operand had ARG = 0
(`decodeBare_ok`). -/
theorem encode_of_decodeOp {op : Nibble} {arg : Byte} {i : Instr} (h : decodeOp op arg = .ok i) :
    encode i = .word (makeWord op arg) := by
  have bare : ∀ {j : Instr}, decodeBare op arg j = .ok i →
      encode j = .word (makeWord op 0#8) → encode i = .word (makeWord op arg) := by
    intro j hj he
    obtain ⟨rfl, rfl⟩ := decodeBare_ok hj
    exact he
  unfold decodeOp at h
  split_ifs at h with hop hop hop hop hop hop hop hop <;> subst hop
  · cases h; rfl
  · exact bare h rfl
  · cases h; rfl
  · cases h; rfl
  · exact bare h rfl
  · exact bare h rfl
  · cases h; rfl
  · exact bare h rfl

/-- A word that decodes has RSV = 0, so it is its OP and ARG (`makeWord_fields`), as the encoder writes it. -/
theorem encode_of_decodeWord {cw : Word} {i : Instr} (h : decodeWord cw = .ok i) :
    encode i = .word cw := by
  unfold decodeWord at h
  split_ifs at h with hrsv
  rw [encode_of_decodeOp h, makeWord_fields (not_not.mp hrsv)]

theorem encode_of_decodeOpcode {c : Byte} {i : Instr} (h : decodeOpcode c = .ok i) :
    encode i = .opcode c := by
  unfold decodeOpcode at h
  split_ifs at h with hc hc hc hc hc hc <;> cases h <;> subst hc
  all_goals rfl

/-- Encoding undoes decoding, in both code spaces. -/
theorem encode_of_decode {code : Code} {i : Instr} (h : decode code = .ok i) : encode i = code := by
  cases code with
  | word cw => exact encode_of_decodeWord h
  | opcode c => exact encode_of_decodeOpcode h

/-! ### Legal words -/

/-- Every instruction reaches the core as a legal word (R73). -/
theorem legalWord_carrier_encode (i : Instr) : legalWord (encode i).carrier = true := by
  cases i with
  | brev a => exact Laws.CarrierIsLegal.brev a
  | txclr => exact Laws.CarrierIsLegal.txclr
  | txpush p => exact Laws.CarrierIsLegal.txpush p
  | send c => exact Laws.CarrierIsLegal.send c
  | read => exact Laws.CarrierIsLegal.read
  | pxstart => exact Laws.CarrierIsLegal.pxstart
  | pxbyte b => exact Laws.CarrierIsLegal.pxbyte b
  | pxend => exact Laws.CarrierIsLegal.pxend
  | reset => exact Laws.CarrierIsLegal.reset
  | getState => exact Laws.CarrierIsLegal.getState
  | getVersion => exact Laws.CarrierIsLegal.getVersion
  | getPacket => exact Laws.CarrierIsLegal.getPacket
  | sendPacket => exact Laws.CarrierIsLegal.sendPacket
  | setLed => exact Laws.CarrierIsLegal.setLed

/-- A word is legal when its OP is from 0x1 to 0x8, its RSV 0, and its ARG 0 where the operation takes none
(R73). -/
theorem legalWord_iff (cw : Word) :
    legalWord cw = true ↔
      (cwOp cw ≠ 0x0#4 ∧ (cwOp cw).toNat < 9) ∧ cwRsv cw = 0#4 ∧
        (cwOp cw ∈ [opTxclr, opRead, opPxstart, opPxend] → cwArg cw = 0#8) := by
  have hop : 1 ≤ (cwOp cw).toNat ↔ cwOp cw ≠ 0x0#4 := by bv_omega
  simp [legalWord, opAssigned, rsvZero, argUsed, hop, Nat.lt_succ_iff, and_assoc, imp_iff_not_or]

/-- A legal OP with a legal ARG decodes (R72, R73). -/
theorem decodeOp_of_legal {op : Nibble} {arg : Byte} (hop : op ≠ 0x0#4 ∧ op.toNat < 9)
    (harg : op ∈ [opTxclr, opRead, opPxstart, opPxend] → arg = 0#8) :
    ∃ i, decodeOp op arg = .ok i := by
  have bare : ∀ j, op ∈ [opTxclr, opRead, opPxstart, opPxend] →
      ∃ i, decodeBare op arg j = .ok i := fun j h => ⟨j, if_pos (harg h)⟩
  obtain ⟨hzero, hlt⟩ := hop
  unfold decodeOp
  split_ifs with h1 h2 h3 h4 h5 h6 h7 h8
  · exact ⟨_, rfl⟩
  · exact bare _ (by simp [h2])
  · exact ⟨_, rfl⟩
  · exact ⟨_, rfl⟩
  · exact bare _ (by simp [h5])
  · exact bare _ (by simp [h6])
  · exact ⟨_, rfl⟩
  · exact bare _ (by simp [h8])
  · simp only [opBrev, opTxclr, opTxpush, opSend, opRead, opPxstart, opPxbyte, opPxend] at *
    bv_omega

/-- R74: the words that decode are the legal ones. -/
theorem decodeWord_ok_iff_legalWord (cw : Word) :
    (∃ i, decodeWord cw = .ok i) ↔ legalWord cw = true := by
  constructor
  · rintro ⟨i, hi⟩
    simpa [encode_of_decodeWord hi, Code.carrier] using legalWord_carrier_encode i
  · intro h
    obtain ⟨hop, hrsv, harg⟩ := (legalWord_iff cw).mp h
    simpa [decodeWord, hrsv] using decodeOp_of_legal hop harg

/-! ### Opcodes and pseudo-instructions -/

/-- Every byte that decodes is one of the six opcodes (R90). -/
theorem mem_of_decodeOpcode {c : Byte} {i : Instr} (h : decodeOpcode c = .ok i) :
    c ∈ commandOpcodes := by
  obtain ⟨hc, -⟩ := exec_of_decodeOpcode h
  exact List.contains_iff_mem.mp hc

/-- A FRAME whose payload fits is TXCLR, a TXPUSH for each byte, and SEND (R92). -/
theorem expandFrame_eq_some_iff {op : Byte} {payload : List Byte} {words : List Word} :
    expandFrame op payload = some words ↔ payload.length ≤ txMax ∧
      makeWord opTxclr 0#8 :: (payload.map (makeWord opTxpush) ++ [makeWord opSend op]) = words := by
  simp [expandFrame, payloadFits]

end Sys2Proof
end

section
/-! The settled statements about the encoding. -/

namespace Sys2Proof.Proofs

open Sys2Proof.Machine

/-- Settles O45: by the cases of the instruction (`decode_encode`). -/
theorem decodeOfEncodeIsIdentity : Obligations.DecodeOfEncodeIsIdentity :=
  fun i _ => decode_encode i

/-- Settles O46: by the branches of the decoder (`encode_of_decode`). -/
theorem noCodeHasAnAlias : Obligations.NoCodeHasAnAlias := fun _ _ h => encode_of_decode h

/-- Settles O47: the words that decode are the legal ones (`decodeWord_ok_iff_legalWord`), which are those that
meet none of R73's conditions (`legalWord_iff`). -/
theorem wordDecodesUnlessIllegal : Obligations.WordDecodesUnlessIllegal := by
  intro cw
  refine ((decodeWord_ok_iff_legalWord cw).trans (legalWord_iff cw)).trans ?_
  simp only [not_or, not_and, not_not, not_le, ne_eq]
  rfl

/-- Settles O48: the six by evaluation, and every byte that decodes is one of them (`mem_of_decodeOpcode`). -/
theorem opcodesAreTheSix : Obligations.OpcodesAreTheSix :=
  ⟨rfl, rfl, rfl, rfl, rfl, rfl, fun _ hc _ hd => hc (mem_of_decodeOpcode hd)⟩

/-- Settles O49: nine literal codes, each evaluated. -/
theorem writtenWordsDecode : Obligations.WrittenWordsDecode :=
  ⟨rfl, rfl, rfl, rfl, rfl, rfl, rfl, rfl, rfl⟩

/-- Settles O50: the expansions with each word as its OP and ARG (`or_setWidth_eq_makeWord`), and the assembler's
bound (`expandFrame_eq_some_iff`). -/
theorem pseudoInstructionsExpand : Obligations.PseudoInstructionsExpand := by
  intro op bytes
  have hpush : (fun b : Byte => 0x3000#16 ||| b.setWidth 16) = makeWord opTxpush :=
    funext (or_setWidth_eq_makeWord opTxpush)
  have hbyte : (fun b : Byte => 0x7000#16 ||| b.setWidth 16) = makeWord opPxbyte :=
    funext (or_setWidth_eq_makeWord opPxbyte)
  have hsend : 0x4000#16 ||| op.setWidth 16 = makeWord opSend op :=
    or_setWidth_eq_makeWord opSend op
  rw [hpush, hbyte, hsend]
  refine ⟨fun hfit => expandFrame_eq_some_iff.mpr ⟨hfit, rfl⟩, fun hlong => ?_, rfl⟩
  refine Option.eq_none_iff_forall_ne_some.mpr fun words hw => ?_
  obtain ⟨hfit, -⟩ := expandFrame_eq_some_iff.mp hw
  exact absurd hfit (Nat.not_le.mpr hlong)

end Sys2Proof.Proofs
end

section
/-! SUPPORT. What a step adds to the histories: the answer of an accepted word by its OP, the answer that ends an
exchange, and one transfer at most (R56, R80 to R82). -/

namespace Sys2Proof.Machine

/-! ### Fields that the end of an exchange leaves -/

@[simp] theorem rxAccept_rsp (r : Byte) (s : State) : (rxAccept r s).rsp = s.rsp := by
  rw [rxAccept_frame]

@[simp] theorem checkComplete_bus (s : State) : (checkComplete s).bus = s.bus := by
  rw [checkComplete_frame]
@[simp] theorem checkComplete_cmdIn (s : State) : (checkComplete s).cmdIn = s.cmdIn := by
  rw [checkComplete_frame]

@[simp] theorem abortExchange_bus (s : State) : (abortExchange s).bus = s.bus := by
  rw [abortExchange_frame]
@[simp] theorem abortExchange_cmdIn (s : State) : (abortExchange s).cmdIn = s.cmdIn := by
  rw [abortExchange_frame]

theorem Received.bus_eq {u v : State} (h : Received u v) : v.bus = u.bus := by rw [h.2]
theorem Received.cmdIn_eq {u v : State} (h : Received u v) : v.cmdIn = u.cmdIn := by rw [h.2]

/-! ### Accepted words and their DONEs (R81) -/

/-- How many words the core has accepted: those it has answered, and the one whose exchange still runs. -/
def State.accepted (s : State) : Nat := doneCount s.rsp + s.owed

theorem accepted_of_idle {s : State} (h : s.phase = .idle) : s.accepted = doneCount s.rsp := by
  simp [State.accepted, State.owed, h]

theorem accepted_of_busy {s : State} (h : s.phase ≠ .idle) : s.accepted = doneCount s.rsp + 1 := by
  simp [State.accepted, State.owed, h]

@[simp] theorem doneCount_done (op : Nibble) (st : Status) (data : List Byte) :
    doneCount [.done op st data] = 1 := rfl

@[simp] theorem doneCount_map_pkt (packets : List (List Byte)) :
    doneCount (packets.map .pkt) = 0 := by
  simp [doneCount]

/-- The DONE that makes a BUSY core idle is the one owed. -/
theorem accepted_emitDone_idle {op : Nibble} {st : Status} {data : List Byte} {s u : State}
    (hb : s.phase ≠ .idle) (hp : u.phase = .idle) (hrsp : u.rsp = s.rsp) :
    (emitDone op st data u).accepted = s.accepted := by
  have hidle : (emitDone op st data u).phase = .idle := hp
  simp [accepted_of_idle hidle, accepted_of_busy hb, hrsp]

theorem accepted_abortExchange {s : State} (hb : s.phase ≠ .idle) :
    (abortExchange s).accepted = s.accepted := by
  obtain ⟨-, h⟩ | ⟨-, h⟩ := abortExchange_cases s <;> rw [h] <;>
    exact accepted_emitDone_idle hb rfl rfl

theorem accepted_checkComplete {s : State} (hb : s.phase ≠ .idle) :
    (checkComplete s).accepted = s.accepted := by
  obtain ⟨-, -, -, -, h⟩ | ⟨-, -, -, -, h⟩ | ⟨-, h⟩ := checkComplete_cases s <;> rw [h]
  · exact accepted_emitDone_idle hb rfl rfl
  · exact accepted_emitDone_idle hb rfl rfl

/-- An accepted word is answered at once or starts the exchange that owes its DONE, and is accepted once. -/
theorem accepted_acceptWord {cw : Word} {s t : State} (hp : s.phase = .idle)
    (h : acceptWord cw s = .next t) : t.accepted = s.accepted + 1 ∧ t.cmdIn = s.cmdIn := by
  rw [accepted_of_idle hp]
  obtain ⟨k, c, rfl⟩ | ⟨packets, op, st, data, ht⟩ := acceptWord_starts_or_answers h
  · exact ⟨accepted_of_busy (by simp), rfl⟩
  · have hphase : t.phase = .idle := by rw [ht]; exact hp
    have hrsp : t.rsp = s.rsp ++ packets.map .pkt ++ [.done op st data] := by rw [ht]
    exact ⟨by simp [accepted_of_idle hphase, hrsp], by rw [ht]⟩

/-! ### The answer of an accepted word -/

/-- A step from `s` to `t` that answers a word with OP `op`: at most the packet that the candidate is, and then one
DONE, with data for BREV only (R80, R81, R152). -/
def AnswersWithOp (op : Nibble) (s t : State) : Prop :=
  ∃ (packets : List (List Byte)) (st : Status) (data : List Byte),
    t.rsp = s.rsp ++ packets.map .pkt ++ [.done op st data] ∧
    (packets = [] ∨ packets = [s.cand.drop hdrLen] ∧ hdrLen < s.cand.length) ∧
    (data = [] ∨ op = opBrev ∧ st = .ok ∧ data.length = 1)

theorem answersWithOp_emitDone {op : Nibble} {st : Status} {s u : State} (hrsp : u.rsp = s.rsp) :
    AnswersWithOp op s (emitDone op st [] u) :=
  ⟨[], st, [], by simp [hrsp], .inl rfl, .inl rfl⟩

/-- An operation that starts no exchange answers with the OP of its own word (R72, R81). -/
theorem exec_answersWithOp {i : Instr} {s t : State} (hi : startsExchange i = false)
    (h : exec i s = .next t) : AnswersWithOp (cwOp (encode i).carrier) s t := by
  cases i with
  | brev a =>
    cases h
    exact ⟨[], .ok, [brev8 a], by simp [encode, Code.carrier], .inl rfl,
      .inr ⟨cwOp_makeWord opBrev a, rfl, rfl⟩⟩
  | txclr | pxstart | pxend => cases h; exact answersWithOp_emitDone rfl
  | txpush p =>
    simp only [encode, Code.carrier, cwOp_makeWord]
    simp only [exec, execTxpush] at h
    split at h <;> cases h <;> exact answersWithOp_emitDone rfl
  | send c =>
    simp only [encode, Code.carrier, cwOp_makeWord]
    have hc : isCommandOpcode c = false := hi
    simp only [exec, execSend, hc] at h
    cases h
    exact answersWithOp_emitDone rfl
  | pxbyte b =>
    simp only [encode, Code.carrier, cwOp_makeWord]
    obtain ⟨-, -, hlen, he⟩ | ⟨-, -, he⟩ | ⟨-, -, he⟩ | ⟨-, -, he⟩ := execPxbyte_cases b s <;>
      obtain rfl := Host.Outcome.next.inj (he.symm.trans h)
    · exact ⟨[s.cand.drop hdrLen], .ok, [], by simp, .inr ⟨rfl, hlen⟩, .inl rfl⟩
    all_goals exact answersWithOp_emitDone rfl
  | _ => cases hi

/-- An accepted word starts an exchange, or is answered with its OP, an illegal one among them (R81, R202). -/
theorem acceptWord_starts_or_answersWithOp {cw : Word} {s t : State}
    (h : acceptWord cw s = .next t) :
    (t.phase = .sync ∧ t.rsp = s.rsp) ∨ AnswersWithOp (cwOp cw) s t := by
  obtain ⟨i, hd, he⟩ | ⟨e, -, he⟩ := acceptWord_cases cw s
  · cases hi : startsExchange i with
    | true =>
      obtain ⟨k, ht, -⟩ := exec_of_startsExchange hi (he.symm.trans h)
      exact .inl ⟨by rw [ht]; rfl, by rw [ht]; rfl⟩
    | false =>
      have ha := exec_answersWithOp hi (he.symm.trans h)
      rw [encode_of_decodeWord hd] at ha
      exact .inr ha
  · obtain rfl := Host.Outcome.next.inj (he.symm.trans h)
    exact .inr (answersWithOp_emitDone rfl)

/-! ### The events of a step -/

/-- The bounds of the response port on one event (R80). -/
def Event.InBounds : Event → Prop
  | .done op st data =>
    data.length ≤ 255 ∧ (data ≠ [] → st = .ok ∧ (op = opBrev ∨ op = opRead))
  | .pkt data => 1 ≤ data.length ∧ data.length ≤ 253

theorem inBounds_done_nil (op : Nibble) (st : Status) : (Event.done op st []).InBounds :=
  ⟨Nat.zero_le _, fun h => absurd rfl h⟩

/-- What a step adds to the response history: at most two events, within the bounds of the response port when the
state it starts from meets the invariants. -/
def EmitsInBounds (s t : State) : Prop :=
  ∃ events : List Event, t.rsp = s.rsp ++ events ∧ events.length ≤ 2 ∧
    (s.Inv → ∀ e ∈ events, e.InBounds)

theorem emitsInBounds_of_rsp_eq {s t : State} (h : t.rsp = s.rsp) : EmitsInBounds s t :=
  ⟨[], by simp [h], Nat.zero_le _, by simp⟩

theorem emitsInBounds_emitDone {op : Nibble} {st : Status} {data : List Byte} {s u : State}
    (hrsp : u.rsp = s.rsp) (hd : s.Inv → (Event.done op st data).InBounds) :
    EmitsInBounds s (emitDone op st data u) :=
  ⟨[.done op st data], by simp [hrsp], by simp, by simpa using hd⟩

/-- An answer is two events at most, and a packet is a candidate of 3 to 255 bytes without its header (R153). -/
theorem AnswersWithOp.emitsInBounds {op : Nibble} {s t : State} (h : AnswersWithOp op s t) :
    EmitsInBounds s t := by
  obtain ⟨packets, st, data, hrsp, hpackets, hdata⟩ := h
  have hdone : (Event.done op st data).InBounds := by
    obtain rfl | ⟨rfl, rfl, hlen⟩ := hdata
    · exact inBounds_done_nil op st
    · exact ⟨by omega, fun _ => ⟨rfl, .inl rfl⟩⟩
  refine ⟨packets.map .pkt ++ [.done op st data], by simp [hrsp], ?_⟩
  obtain rfl | ⟨rfl, hlen⟩ := hpackets
  · exact ⟨by simp, fun _ => by simpa using hdone⟩
  · refine ⟨by simp, ?_⟩
    rintro ⟨⟨-, hcand, -⟩, -⟩
    have hpkt : (Event.pkt (s.cand.drop hdrLen)).InBounds := by
      simp only [Event.InBounds, List.length_drop, hdrLen, pxMax] at *
      omega
    simpa using ⟨hpkt, hdone⟩

theorem emitsInBounds_abortExchange {s u : State} (hrsp : u.rsp = s.rsp) :
    EmitsInBounds s (abortExchange u) := by
  obtain ⟨-, h⟩ | ⟨-, h⟩ := abortExchange_cases u <;> rw [h] <;>
    exact emitsInBounds_emitDone hrsp fun _ => inBounds_done_nil _ _

/-- A completed SEND answers without data, a completed READ with the ReceiveBuffer (R132). -/
theorem emitsInBounds_checkComplete {s v : State} (hrsp : v.rsp = s.rsp)
    (hrx : s.Inv → v.rxbuf.length ≤ rxCap) : EmitsInBounds s (checkComplete v) := by
  obtain ⟨-, -, -, -, h⟩ | ⟨-, -, -, -, h⟩ | ⟨-, h⟩ := checkComplete_cases v <;> rw [h]
  · exact emitsInBounds_emitDone hrsp fun _ => inBounds_done_nil _ _
  · exact emitsInBounds_emitDone hrsp fun hs => ⟨hrx hs, fun _ => ⟨rfl, .inr rfl⟩⟩
  · exact emitsInBounds_of_rsp_eq hrsp

theorem rxbuf_length_le_of_inv {s : State} (hs : s.Inv) : s.rxbuf.length ≤ rxCap := by
  obtain ⟨-, ⟨hsum, -⟩, -⟩ := hs
  exact Nat.le_of_add_right_le hsum

theorem rxAccept_rxbuf_length_le_of_inv (r : Byte) {s : State} (hs : s.Inv) :
    (rxAccept r s).rxbuf.length ≤ rxCap := by
  obtain ⟨-, hrecv, -⟩ := hs
  obtain ⟨hsum, -⟩ := receiveBounded_rxAccept r hrecv
  exact Nat.le_of_add_right_le hsum

/-- A received byte emits what the completion check after it does, in each PHASE. -/
theorem emitsInBounds_receiveIn (p : Phase) (r : Byte) (s : State) :
    EmitsInBounds s (receiveIn p r s) := by
  cases p with
  | idle => exact emitsInBounds_of_rsp_eq rfl
  | sync =>
    change EmitsInBounds s (syncReceive r s)
    cases hsrc : s.lenSrc with
    | nextAfterSync =>
      rw [syncReceive_of_nextAfterSync r hsrc]
      exact emitsInBounds_checkComplete rfl rxbuf_length_le_of_inv
    | syncReply =>
      rw [syncReceive_of_syncReply r hsrc]
      exact emitsInBounds_checkComplete rfl rxbuf_length_le_of_inv
  | frame =>
    change EmitsInBounds s (frameReceive r s)
    by_cases hlast : s.txi.toNat = s.txbuf.length + 1
    · rw [frameReceive_of_last r hlast]
      exact emitsInBounds_checkComplete (by simp) (rxAccept_rxbuf_length_le_of_inv r)
    · rw [frameReceive_of_not_last r hlast]
      exact emitsInBounds_of_rsp_eq (by simp)
  | fill => exact emitsInBounds_checkComplete (by simp) (rxAccept_rxbuf_length_le_of_inv r)

/-- Every step, a reset among them, only adds events, two at most and within the response port's bounds. -/
theorem step_emitsInBounds {s t : State} (h : step s = .next t) : EmitsInBounds s t := by
  by_cases hl : s.rstLow
  · by_cases hp : s.phase = .idle
    · obtain ⟨-, rfl⟩ | ⟨cw, rest, -, ha⟩ := idle_step_cases hl hp h
      · exact emitsInBounds_of_rsp_eq rfl
      · obtain ⟨-, hrsp⟩ | hans := acceptWord_starts_or_answersWithOp ha
        · exact emitsInBounds_of_rsp_eq hrsp
        · exact hans.emitsInBounds
    · obtain ⟨-, rfl⟩ | ⟨b, rest, -, rfl⟩ | ⟨b, r, w, rest, -, rfl⟩ := transfer_step_cases hl hp h
      · exact emitsInBounds_of_rsp_eq rfl
      · exact emitsInBounds_abortExchange rfl
      · exact emitsInBounds_receiveIn s.phase r (logTransfer b (.ok w) rest s.dropRst)
  · obtain ⟨rest, rfl⟩ := step_of_reset (not_not.mp hl) h
    exact emitsInBounds_of_rsp_eq rfl

/-- Every step only adds transfers, one at most: the one a BUSY core makes (R56). -/
theorem step_bus {s t : State} (h : step s = .next t) :
    ∃ transfers : List Transfer, t.bus = s.bus ++ transfers ∧ transfers.length ≤ 1 := by
  have unchanged : t.bus = s.bus →
      ∃ transfers : List Transfer, t.bus = s.bus ++ transfers ∧ transfers.length ≤ 1 :=
    fun hb => ⟨[], by simp [hb], Nat.zero_le _⟩
  by_cases hl : s.rstLow
  · by_cases hp : s.phase = .idle
    · obtain ⟨-, rfl⟩ | ⟨cw, rest, -, ha⟩ := idle_step_cases hl hp h
      · exact unchanged rfl
      · obtain ⟨k, c, rfl⟩ | ⟨_, _, _, _, ht⟩ := acceptWord_starts_or_answers ha
        · exact unchanged rfl
        · exact unchanged (by rw [ht]; rfl)
    · obtain ⟨-, rfl⟩ | ⟨b, rest, -, -, rfl⟩ | ⟨b, w, rest, v, -, -, hv, rfl⟩ :=
        busy_step_cases hl hp h
      · exact unchanged rfl
      · exact ⟨[⟨b, .fail⟩], by simp, le_rfl⟩
      · exact ⟨[⟨b, .ok w⟩], by simp [hv.bus_eq], le_rfl⟩
  · obtain ⟨rest, rfl⟩ := step_of_reset (not_not.mp hl) h
    exact unchanged rfl

end Sys2Proof.Machine
end

section
/-! SUPPORT. The words of a FRAME accepted one after the other: TXCLR, the TXPUSHes, SEND (R92, R235). -/

namespace Sys2Proof.Machine

/-- With no level of `rst` to come, an idle core executes the word offered first, if it decodes (R57, R74). -/
theorem step_of_offered_instr {s : State} {cw : Word} {i : Instr} {rest : List Word}
    (hr : s.rstIn = []) (hp : s.phase = .idle) (hc : s.cmdIn = cw :: rest)
    (hd : decodeWord cw = .ok i) : step s = exec i (takeOffer rest s) := by
  have hl : s.rstLow := by simp [State.rstLow, hr]
  have hdrop : s.dropRst = s := by cases s; simp_all [State.dropRst]
  rw [step_of_offer hl hp hc, hdrop, acceptWord_of_decode hd]

/-- The core after the TXCLR and some of the TXPUSHes of a FRAME: this payload held, one DONE for each word
accepted, and the words of `rest` still offered. -/
def State.loaded (s : State) (payload : List Byte) (rest : List Word) : State :=
  { s with
    txbuf := payload, lastErr := .ok, cmdIn := rest,
    rsp := s.rsp ++
      .done opTxclr .ok [] :: List.replicate payload.length (.done opTxpush .ok []) }

section

variable {s : State} {rest : List Word}

/-- TXCLR leaves no payload, whatever was held (R120). -/
theorem step_txclr_loaded (hr : s.rstIn = []) (hp : s.phase = .idle)
    (hc : s.cmdIn = makeWord opTxclr 0#8 :: rest) : step s = .next (s.loaded [] rest) :=
  step_of_offered_instr (i := .txclr) hr hp hc (decodeWord_makeWord opTxclr 0#8)

/-- TXPUSH appends its byte to a payload with room (R121). -/
theorem step_txpush_loaded (hr : s.rstIn = []) (hp : s.phase = .idle) {held : List Byte}
    (hroom : held.length < txMax) (p : Byte) :
    step (s.loaded held (makeWord opTxpush p :: rest)) = .next (s.loaded (held ++ [p]) rest) := by
  calc step (s.loaded held (makeWord opTxpush p :: rest))
      = exec (.txpush p) (s.loaded held rest) :=
        step_of_offered_instr (s := s.loaded held (makeWord opTxpush p :: rest)) hr hp rfl
          (decodeWord_makeWord opTxpush p)
    _ = .next (emitDone opTxpush .ok [] (pushPayload p (s.loaded held rest))) := if_pos hroom
    _ = .next (s.loaded (held ++ [p]) rest) := by
        simp [emitDone, pushPayload, State.loaded, List.replicate_succ']

/-- The TXPUSHes of a payload that fits append it (R121, R235). -/
theorem runSteps_txpush_loaded (hr : s.rstIn = []) (hp : s.phase = .idle) (payload : List Byte)
    {held : List Byte} (hfit : held.length + payload.length ≤ txMax) :
    runSteps payload.length (s.loaded held (payload.map (makeWord opTxpush) ++ rest)) =
      .next (s.loaded (held ++ payload) rest) := by
  induction payload generalizing held with
  | nil => simp
  | cons p payload ih =>
    rw [List.length_cons] at hfit
    rw [List.length_cons, List.map_cons, List.cons_append,
      runSteps_succ (step_txpush_loaded hr hp (by omega) p), ih (by simp; omega)]
    simp

/-- SEND of one of the six opcodes starts the exchange that carries the payload held (R123). -/
theorem step_send_loaded (hr : s.rstIn = []) (hp : s.phase = .idle) {op : Byte}
    (hop : isCommandOpcode op = true) (payload : List Byte) :
    step (s.loaded payload (makeWord opSend op :: rest)) =
      .next (startSend op (s.loaded payload rest)) :=
  calc step (s.loaded payload (makeWord opSend op :: rest))
      = exec (.send op) (s.loaded payload rest) :=
        step_of_offered_instr (s := s.loaded payload (makeWord opSend op :: rest)) hr hp rfl
          (decodeWord_makeWord opSend op)
    _ = .next (startSend op (s.loaded payload rest)) := exec_send_of_isCommandOpcode hop _

end

end Sys2Proof.Machine
end

section
/-! The settled statements about words, events and transfers. -/

namespace Sys2Proof.Proofs

open Sys2Proof.Machine

/-- Settles O28: an accepted word counts once (`accepted_acceptWord`), and neither a transfer nor the end of an
exchange changes the count. -/
theorem everyAcceptedWordGetsOneDone : Obligations.EveryAcceptedWordGetsOneDone := by
  intro s t hl h
  change t.accepted + t.cmdIn.length = s.accepted + s.cmdIn.length
  by_cases hp : s.phase = .idle
  · obtain ⟨-, rfl⟩ | ⟨cw, rest, hc, ha⟩ := idle_step_cases hl hp h
    · rfl
    · obtain ⟨hacc, hcmd⟩ := accepted_acceptWord (s := takeOffer rest s.dropRst) hp ha
      rw [hacc, hcmd, hc]
      exact Nat.add_right_comm _ _ _
  · obtain ⟨-, rfl⟩ | ⟨b, rest, -, -, rfl⟩ | ⟨b, w, rest, v, -, -, hv, rfl⟩ :=
      busy_step_cases hl hp h
    · rfl
    · rw [accepted_abortExchange (s := logTransfer b .fail rest s.dropRst) hp, abortExchange_cmdIn]
      rfl
    · obtain ⟨hbusy, -⟩ := id hv
      rw [accepted_checkComplete hbusy, checkComplete_cmdIn, accepted_of_busy hbusy,
        accepted_of_busy hp, hv.rsp_eq, hv.cmdIn_eq]
      rfl

/-- Settles O29: a core that is idle after the acceptance has answered with the word's OP
(`acceptWord_starts_or_answersWithOp`). -/
theorem sameStepDoneCarriesTheWordsOp : Obligations.SameStepDoneCarriesTheWordsOp := by
  intro s t cw rest hl hp hc h ht
  rw [step_of_offer hl hp hc] at h
  obtain ⟨hsync, -⟩ | ⟨packets, st, data, hrsp, -⟩ := acceptWord_starts_or_answersWithOp h
  · simp [ht] at hsync
  · exact ⟨packets, st, data, hrsp⟩

/-- Settles O31: the events of a step (`step_emitsInBounds`) and its transfers (`step_bus`). -/
theorem historiesOnlyGrow : Obligations.HistoriesOnlyGrow := by
  intro s t h
  obtain ⟨events, hrsp, htwo, -⟩ := step_emitsInBounds h
  obtain ⟨transfers, hbus, hone⟩ := step_bus h
  exact ⟨events, transfers, hrsp, htwo, hbus, hone⟩

/-- Settles O32: the events of a step from a state with the invariants (`step_emitsInBounds`). -/
theorem eventDataStaysInItsBounds : Obligations.EventDataStaysInItsBounds := by
  intro s t hs h
  obtain ⟨events, hrsp, -, hbounds⟩ := step_emitsInBounds h
  exact ⟨events, hrsp, fun _ _ _ hmem => hbounds hs _ hmem, fun _ hmem => hbounds hs _ hmem⟩

/-- Settles O51: TXCLR empties the payload, the TXPUSHes load this one (`runSteps_txpush_loaded`), and SEND starts
the exchange. -/
theorem frameWordsLoadThePayload : Obligations.FrameWordsLoadThePayload := by
  intro op payload words rest s hop hexpand hp hr hc
  obtain ⟨hfit, rfl⟩ := expandFrame_eq_some_iff.mp hexpand
  have hc' : s.cmdIn = makeWord opTxclr 0#8 ::
      (payload.map (makeWord opTxpush) ++ makeWord opSend op :: rest) := by simpa using hc
  have hpush := runSteps_txpush_loaded (rest := makeWord opSend op :: rest) hr hp payload
    (held := []) (by simpa using hfit)
  calc runSteps (payload.length + 2) s
      = runSteps (payload.length + 1) _ := runSteps_succ (step_txclr_loaded hr hp hc')
    _ = runSteps 1 (s.loaded payload (makeWord opSend op :: rest)) := runSteps_add hpush
    _ = runSteps 0 (startSend op (s.loaded payload rest)) :=
        runSteps_succ (step_send_loaded hr hp hop payload)

end Sys2Proof.Proofs
end

section
/-! SUPPORT. Bit reversal bit by bit (R100), and the decoder on a word written as its OP with ARG put in (R91). -/

namespace Sys2Proof.Machine

/-! ### Bit reversal -/

@[simp] theorem getLsbD_bitOf (a : Byte) (i j : Nat) :
    (bitOf a i).getLsbD j = (decide (j = 0) && a.getLsbD i) := by
  cases j <;> simp [bitOf]

/-- Bit `i` of the reversed byte is one of the eight pieces `brev8` concatenates (R100). -/
theorem getLsbD_brev8 (a : Byte) {i : Nat} (hi : i < 8) :
    (brev8 a).getLsbD i = a.getLsbD (7 - i) := by
  simp only [brev8, BitVec.getLsbD_append, getLsbD_bitOf]
  interval_cases i <;> simp

/-- A bit goes to its mirror position and back (R103). -/
theorem brev8_brev8 (b : Byte) : brev8 (brev8 b) = b := by
  apply BitVec.eq_of_getLsbD_eq
  intro i hi
  calc (brev8 (brev8 b)).getLsbD i
      = (brev8 b).getLsbD (7 - i) := getLsbD_brev8 _ hi
    _ = b.getLsbD (7 - (7 - i)) := getLsbD_brev8 _ (by omega)
    _ = b.getLsbD i := by rw [Nat.sub_sub_self (Nat.le_of_lt_succ hi)]

/-! ### Words with an operand -/

/-- A word that is OP in its top bits with ARG put in decodes as that OP and ARG (R72, R91). -/
theorem decodeWord_or_setWidth (op : Nibble) (arg : Byte) :
    decodeWord ((op ++ 0#12 : Word) ||| arg.setWidth 16) = decodeOp op arg := by
  rw [or_setWidth_eq_makeWord, decodeWord_makeWord]

end Sys2Proof.Machine
end

section
/-! The settled statements about BREV8. -/

namespace Sys2Proof.Proofs

open Sys2Proof.Machine

/-- Settles O1: the eight bits one by one (`getLsbD_brev8`). -/
theorem brevReversesEveryBit : Obligations.BrevReversesEveryBit :=
  fun a _ hi => getLsbD_brev8 a hi

/-- Settles O2: bit `i` goes to `7 - i` and back (`brev8_brev8`). -/
theorem brevIsItsOwnInverse : Obligations.BrevIsItsOwnInverse := brev8_brev8

/-- Settles O3: the word decodes by its OP (`decodeWord_or_setWidth`), and BREV is one `emitDone`, which appends its
DONE and writes LAST_ERR. -/
theorem brevAnswersTheReversedByte : Obligations.BrevAnswersTheReversedByte :=
  fun a _ => ⟨decodeWord_or_setWidth opBrev a, rfl⟩

end Sys2Proof.Proofs
end

section
/-! SUPPORT. The transfers of a BUSY core as equations, each under the condition that selects it: a received byte
(R128), the completion check (R132), the abort (R133), and a step by the answer it takes (R111). -/

namespace Sys2Proof.Machine

/-! ### Received bytes and the completion check -/

/-- The first byte after the wait is the length (R128). -/
theorem rxAccept_of_awaiting (r : Byte) {s : State} (ha : s.awaiting = true) :
    rxAccept r s = { s with rem := r, awaiting := false } := by
  simp only [rxAccept, ha, if_true]

/-- A byte of the response is appended (R128). -/
theorem rxAccept_of_remaining (r : Byte) {s : State} (ha : s.awaiting = false) (hr : s.rem ≠ 0#8) :
    rxAccept r s = { s with rxbuf := s.rxbuf ++ [r], rem := s.rem - 1#8 } := by
  simp only [rxAccept, ha, Bool.false_eq_true, if_false, if_pos hr]

/-- A byte after the response vanishes (R128). -/
theorem rxAccept_of_complete (r : Byte) {s : State} (ha : s.awaiting = false) (hr : s.rem = 0#8) :
    rxAccept r s = s := by
  simp only [rxAccept, ha, hr, Bool.false_eq_true, if_false, ne_eq, not_true_eq_false]

/-- Nothing completes while there is something to receive, or outside FILL (R132). -/
theorem checkComplete_of_incomplete {s : State}
    (h : ¬ (s.phase = .fill ∧ s.awaiting = false ∧ s.rem = 0#8)) : checkComplete s = s := by
  simp only [checkComplete, if_neg h]

/-- A SEND completes with its payload consumed (R132). -/
theorem checkComplete_of_send {s : State} (hp : s.phase = .fill) (ha : s.awaiting = false)
    (hr : s.rem = 0#8) (hk : s.kind = .cmd) :
    checkComplete s = emitDone opSend .ok [] { clearPayload s with phase := .idle } := by
  simp only [checkComplete, hp, ha, hr, hk, and_self, if_true, completeSend_eq]

/-- A READ completes with the bytes received (R132). -/
theorem checkComplete_of_read {s : State} (hp : s.phase = .fill) (ha : s.awaiting = false)
    (hr : s.rem = 0#8) (hk : s.kind = .read) :
    checkComplete s = emitDone opRead .ok s.rxbuf
      { s with rxbuf := [], rem := 0#8, awaiting := false, phase := .idle } := by
  simp only [checkComplete, hp, ha, hr, hk, and_self, if_true, completeRead_eq]

/-- An aborted SEND loses its payload (R133). -/
theorem abortExchange_of_send {s : State} (hk : s.kind = .cmd) :
    abortExchange s = emitDone opSend .errTransport [] { clearPayload s with phase := .idle } := by
  simp only [abortExchange, hk, raiseStatus_eq]

/-- An aborted READ loses nothing (R133). -/
theorem abortExchange_of_read {s : State} (hk : s.kind = .read) :
    abortExchange s = emitDone opRead .errTransport [] { s with phase := .idle } := by
  simp only [abortExchange, hk, raiseStatus_eq]

/-! ### Steps of a BUSY core -/

/-- There is a byte on `xfer_tx` only while BUSY (R111). -/
theorem phase_ne_idle_of_wireOut {s : State} {b : Byte} (h : s.wireOut = some b) :
    s.phase ≠ .idle := by
  intro hp
  simp [State.wireOut, hp] at h

/-- The core's step while BUSY is one transfer of the byte on `xfer_tx`, received as PHASE says (R111). -/
theorem coreStep_of_wireOut {s : State} {b : Byte} (h : s.wireOut = some b) :
    ∃ host, b = brev8 host ∧ coreStep s = transfer host (receiveIn s.phase) s := by
  cases hp : s.phase with
  | idle => exact absurd hp (phase_ne_idle_of_wireOut h)
  | sync =>
    simp only [State.wireOut, hp, Option.some.injEq] at h
    exact ⟨syncByte, h.symm, by simp only [coreStep, hp, syncTransfer, receiveIn]⟩
  | frame =>
    simp only [State.wireOut, hp, Option.map_eq_some_iff] at h
    obtain ⟨host, hf, rfl⟩ := h
    exact ⟨host, rfl, by simp only [coreStep, hp, frameTransfer, hf, receiveIn]⟩
  | fill =>
    simp only [State.wireOut, hp, Option.some.injEq] at h
    exact ⟨fillByte, h.symm, by simp only [coreStep, hp, fillTransfer, receiveIn]⟩

/-- With an answer to take, a step with `rst` at 0 is no wait. -/
theorem step_of_answer {s : State} {r : Reply} {rest : List Reply} (hl : s.rstLow)
    (hx : s.xferIn = r :: rest) : step s = coreStep s.dropRst := by
  obtain hs | ⟨hsilent, -⟩ := step_low hl
  · exact hs
  · obtain ⟨-, hnil⟩ := coreStep_silent_inv hsilent
    simp [hx] at hnil

section

variable {s : State} {b w : Byte} {rest : List Reply}

/-- A step whose transfer is answered with a byte (R111). -/
theorem step_of_received (hl : s.rstLow) (hb : s.wireOut = some b) (hx : s.xferIn = .ok w :: rest) :
    step s = .next (receiveIn s.phase (brev8 w) (logTransfer b (.ok w) rest s.dropRst)) := by
  obtain ⟨host, rfl, hc⟩ := coreStep_of_wireOut (s := s.dropRst) hb
  rw [step_of_answer hl hx, hc]
  simp only [transfer, dropRst_xferIn, hx, dropRst_phase]

/-- A step whose transfer fails (R111, R133). -/
theorem step_of_failed (hl : s.rstLow) (hb : s.wireOut = some b) (hx : s.xferIn = .fail :: rest) :
    step s = .next (abortExchange (logTransfer b .fail rest s.dropRst)) := by
  obtain ⟨host, rfl, hc⟩ := coreStep_of_wireOut (s := s.dropRst) hb
  rw [step_of_answer hl hx, hc]
  simp only [transfer, dropRst_xferIn, hx]

end

/-- The core's step is stuck with a byte on `xfer_tx` and no answer to come (R130). -/
theorem coreStep_of_silent {s : State} {b : Byte} (hb : s.wireOut = some b) (hx : s.xferIn = []) :
    coreStep s = .fault .transportSilent := by
  obtain ⟨host, -, hc⟩ := coreStep_of_wireOut hb
  rw [hc, transfer_silent host _ s hx]

@[simp] theorem brev8_syncByte : brev8 syncByte = 0x99#8 := rfl
@[simp] theorem brev8_fillByte : brev8 fillByte = 0x00#8 := rfl

theorem wireOut_of_sync {s : State} (hp : s.phase = .sync) : s.wireOut = some 0x99#8 := by
  simp only [State.wireOut, hp, brev8_syncByte]

theorem wireOut_of_fill {s : State} (hp : s.phase = .fill) : s.wireOut = some 0x00#8 := by
  simp only [State.wireOut, hp, brev8_fillByte]

theorem wireOut_of_frame {s : State} {b : Byte} (hp : s.phase = .frame)
    (hb : frameByte s s.txi.toNat = some b) : s.wireOut = some (brev8 b) := by
  simp only [State.wireOut, hp, hb, Option.map_some]

section

variable {s : State} {b w : Byte} {rest : List Reply}

/-- The step of a SYNC transfer that is answered with a byte (R126). -/
theorem step_of_sync_received (hl : s.rstLow) (hp : s.phase = .sync) (hx : s.xferIn = .ok w :: rest) :
    step s = .next (syncReceive (brev8 w) (logTransfer 0x99#8 (.ok w) rest s.dropRst)) := by
  have h := step_of_received hl (wireOut_of_sync hp) hx
  rwa [hp] at h

/-- The step of a FRAME transfer that is answered with a byte (R127). -/
theorem step_of_frame_received (hl : s.rstLow) (hp : s.phase = .frame)
    (hb : frameByte s s.txi.toNat = some b) (hx : s.xferIn = .ok w :: rest) :
    step s = .next (frameReceive (brev8 w) (logTransfer (brev8 b) (.ok w) rest s.dropRst)) := by
  have h := step_of_received hl (wireOut_of_frame hp hb) hx
  rwa [hp] at h

/-- The step of a FILL transfer that is answered with a byte (R129). -/
theorem step_of_fill_received (hl : s.rstLow) (hp : s.phase = .fill) (hx : s.xferIn = .ok w :: rest) :
    step s = .next (fillReceive (brev8 w) (logTransfer 0x00#8 (.ok w) rest s.dropRst)) := by
  have h := step_of_received hl (wireOut_of_fill hp) hx
  rwa [hp] at h

end

/-- While the length is awaited the sync transfer completes nothing (R126, R132). -/
theorem syncReceive_awaits_length (r : Byte) {s : State} (hsrc : s.lenSrc = .nextAfterSync) :
    syncReceive r s = { s with awaiting := true, phase := phaseAfterSync s.kind } := by
  rw [syncReceive_of_nextAfterSync r hsrc, checkComplete_of_incomplete (by simp)]

/-- A sync reply that is the length of a response to come, or of a SEND, completes nothing (R126, R132). -/
theorem syncReceive_latches_length {r : Byte} {s : State} (hsrc : s.lenSrc = .syncReply)
    (h : s.kind = .cmd ∨ r ≠ 0#8) :
    syncReceive r s = { s with rem := r, awaiting := false, phase := phaseAfterSync s.kind } := by
  rw [syncReceive_of_syncReply r hsrc, checkComplete_of_incomplete]
  rintro ⟨hfill, -, hr⟩
  obtain hk | hne := h
  · simp [hk] at hfill
  · exact hne hr

/-- A READ whose length is the sync reply 0 completes with it (R126, R132). -/
theorem syncReceive_completes_empty_read {s : State} (hsrc : s.lenSrc = .syncReply)
    (hk : s.kind = .read) : syncReceive 0#8 s = emitDone opRead .ok s.rxbuf
      { s with rxbuf := [], rem := 0#8, awaiting := false, phase := .idle } :=
  (syncReceive_of_syncReply _ hsrc).trans (checkComplete_of_read (by simp [hk]) rfl rfl hk)

/-! ### Frames -/

/-- frame_byte(i) is element i of the frame (R85, R125). -/
theorem frameByte_eq_getElem? (s : State) (i : Nat) : frameByte s i = s.frameBytes[i]? := by
  match i with
  | 0 | 1 | j + 2 => rfl

@[simp] theorem frameBytes_length (s : State) : s.frameBytes.length = s.txbuf.length + 2 := rfl

/-! ### Fields that an exchange's operations leave -/

@[simp] theorem checkComplete_xferIn (s : State) : (checkComplete s).xferIn = s.xferIn := by
  rw [checkComplete_frame]
@[simp] theorem abortExchange_xferIn (s : State) : (abortExchange s).xferIn = s.xferIn := by
  rw [abortExchange_frame]
@[simp] theorem checkComplete_rstIn (s : State) : (checkComplete s).rstIn = s.rstIn := by
  rw [checkComplete_frame]
@[simp] theorem abortExchange_rstIn (s : State) : (abortExchange s).rstIn = s.rstIn := by
  rw [abortExchange_frame]

theorem Received.xferIn_eq {u v : State} (h : Received u v) : v.xferIn = u.xferIn := by rw [h.2]
theorem Received.rstIn_eq {u v : State} (h : Received u v) : v.rstIn = u.rstIn := by rw [h.2]

/-- A command opcode is one of the six bytes of R90. -/
theorem isCommandOpcode_iff_mem (c : Byte) :
    isCommandOpcode c = true ↔ c ∈ [0x01#8, 0x02#8, 0x03#8, 0x04#8, 0x07#8, 0x08#8] :=
  List.contains_iff_mem

/-- SEND of any other byte is refused (R123, R170). -/
theorem exec_send_of_not_isCommandOpcode {c : Byte} (hc : ¬ isCommandOpcode c = true) (s : State) :
    exec (.send c) s = .next (emitDone opSend .errBadcmd [] s) := by
  simp only [exec, execSend, if_neg hc, raiseStatus_eq]

end Sys2Proof.Machine
end

section
/-! The settled statements about the payload, the exchange start, and the single transfers of an exchange. -/

namespace Sys2Proof.Proofs

open Sys2Proof.Machine

/-- Settles O4: TXCLR is `clearPayload` and one DONE. -/
theorem txclrEmptiesThePayload : Obligations.TxclrEmptiesThePayload :=
  fun _ => ⟨rfl, rfl⟩

/-- Settles O5: the word decodes by its OP (`decodeWord_or_setWidth`), and the capacity selects the outcome. -/
theorem txpushAppendsUntil254Bytes : Obligations.TxpushAppendsUntil254Bytes := by
  intro p s
  refine ⟨decodeWord_or_setWidth opTxpush p, fun hroom => if_pos hroom, fun hfull => if_neg ?_⟩
  rw [hfull]
  exact lt_irrefl txMax

/-- Settles O6: the six bytes are the command opcodes (`isCommandOpcode_iff_mem`), whose SEND starts the exchange. -/
theorem sendAndReadStartTheExchange : Obligations.SendAndReadStartTheExchange :=
  fun s => ⟨fun c hc => exec_send_of_isCommandOpcode ((isCommandOpcode_iff_mem c).mpr hc) s, rfl⟩

/-- Settles O7: any byte but the six is refused (`exec_send_of_not_isCommandOpcode`). -/
theorem sendRefusesOtherOpcodes : Obligations.SendRefusesOtherOpcodes :=
  fun c s hc => exec_send_of_not_isCommandOpcode (mt (isCommandOpcode_iff_mem c).mp hc) s

/-- Settles O16: one equation for each of the three cases of R128. -/
theorem receivedBytesLatchAppendOrVanish : Obligations.ReceivedBytesLatchAppendOrVanish := by
  intro r s
  refine ⟨rxAccept_of_awaiting r, fun ha hpos => ?_, fun ha hzero => ?_⟩
  · have hr : s.rem ≠ 0#8 := by bv_omega
    refine ⟨rxAccept_of_remaining r ha hr, ?_⟩
    rw [rxAccept_of_remaining r ha hr]
    bv_omega
  · exact rxAccept_of_complete r ha (BitVec.eq_of_toNat_eq hzero)

/-- Settles O19: one equation for each outcome of the completion check. -/
theorem completionAnswersTheCommand : Obligations.CompletionAnswersTheCommand := by
  intro s
  refine ⟨?_, ?_, checkComplete_of_incomplete⟩
  · rintro ⟨hp, ha, hr, hk⟩
    rw [checkComplete_of_send hp ha hr hk]
    rfl
  · rintro ⟨hp, ha, hr, hk⟩
    rw [checkComplete_of_read hp ha hr hk, ← ha, ← hr]
    rfl

/-- Settles O20: the step of a failed transfer (`step_of_failed`), and what its abort does for either KIND. -/
theorem failedTransferAbortsTheExchange : Obligations.FailedTransferAbortsTheExchange := by
  intro s b rest hl hb hx
  rw [step_of_failed hl hb hx]
  refine ⟨fun hk => ?_, fun hk => ?_⟩
  · rw [abortExchange_of_send (s := logTransfer b .fail rest s.dropRst) hk]
    rfl
  · rw [abortExchange_of_read (s := logTransfer b .fail rest s.dropRst) hk]
    rfl

/-- Settles O21: frame_byte is the frame's indexing (`frameByte_eq_getElem?`), and `TXCNT + 1` fits a byte. -/
theorem frameIsLengthOpcodePayload : Obligations.FrameIsLengthOpcodePayload := by
  intro s
  refine ⟨rfl, frameBytes_length s, frameByte_eq_getElem? s, fun hlen => ?_, fun hp => ?_⟩
  · have hfit : s.txbuf.length + 1 < 2 ^ 8 := by omega
    simp only [State.frameBytes, List.head?_cons, Option.map_some, BitVec.toNat_ofNat,
      Nat.mod_eq_of_lt hfit]
  · simp only [State.wireOut, hp, frameByte_eq_getElem?]

/-- Settles O14: a received byte in SYNC is R126's (`step_of_sync_received`); only a READ whose length is the sync
reply 0 completes with it. -/
theorem syncTransferStartsTheLength : Obligations.SyncTransferStartsTheLength := by
  intro s w rest hl hp
  have hphase : phaseAfterSync s.kind = if s.kind = .cmd then .frame else .fill := by
    cases s.kind <;> rfl
  refine ⟨fun hx hsrc => ?next, fun hx hsrc hbusy => ?reply, fun hx hsrc hk hw => ?empty,
    fun hx => step_of_failed hl (wireOut_of_sync hp) hx⟩
  all_goals rw [step_of_sync_received hl hp hx]
  case next =>
    rw [syncReceive_awaits_length (s := logTransfer _ _ _ s.dropRst) _ hsrc, ← hphase]
    rfl
  case reply =>
    rw [syncReceive_latches_length (s := logTransfer _ _ _ s.dropRst) hsrc hbusy, ← hphase]
    rfl
  case empty =>
    rw [hw, syncReceive_completes_empty_read (s := logTransfer _ _ _ s.dropRst) hsrc hk]
    rfl

/-- Settles O15: a received byte in FRAME is R127's (`step_of_frame_received`), in its two cases. -/
theorem frameTransferSendsFrameByteTxi : Obligations.FrameTransferSendsFrameByteTxi := by
  intro s b w rest hl hp hb
  refine ⟨fun hx hlast => ?_, fun hx hlast => ?_,
    fun hx => step_of_failed hl (wireOut_of_frame hp hb) hx⟩
  · rw [step_of_frame_received hl hp hb hx,
      frameReceive_of_not_last (s := logTransfer _ _ _ s.dropRst) _ hlast]
    rfl
  · rw [step_of_frame_received hl hp hb hx,
      frameReceive_of_last (s := logTransfer _ _ _ s.dropRst) _ hlast]
    rfl

/-- Settles O17: a received byte in FILL is R129's (`step_of_fill_received`). -/
theorem fillTransferPullsOneByte : Obligations.FillTransferPullsOneByte :=
  fun _ _ _ hl hp => ⟨step_of_fill_received hl hp, step_of_failed hl (wireOut_of_fill hp)⟩

/-- Settles O35: without an answer the core's step is stuck (`coreStep_of_silent`); what a step makes of that
depends on the level of `rst` to come. -/
theorem silentTransportLeavesTheCoreStuck : Obligations.SilentTransportLeavesTheCoreStuck := by
  intro s b hb hx
  refine ⟨fun hr => ?_, fun rest hr => ?_, fun rest hr => ⟨_, step_eq_takeReset hr, rfl⟩⟩
  · simp only [step, cycle, hr, coreStep_of_silent hb hx]
  · have hstuck : coreStep { s with rstIn := rest } = .fault .transportSilent :=
      coreStep_of_silent hb hx
    simp only [step, cycle, hr, lowInstant, hstuck]

/-- Settles O27: a BUSY step logs the transfer of the byte on `xfer_tx` and takes one answer, and the end of an
exchange writes neither; an accepted word writes neither. -/
theorem busyStepsTransferAndAcceptNoWord : Obligations.BusyStepsTransferAndAcceptNoWord := by
  intro s t hl h
  refine ⟨fun hb => ?_, fun hp => ?_⟩
  · obtain ⟨hx, rfl⟩ | ⟨b, rest, hwire, hx, rfl⟩ | ⟨b, w, rest, v, hwire, hx, hv, rfl⟩ :=
      busy_step_cases hl hb h
    · exact ⟨rfl, fun r rest hx' => by simp [hx] at hx'⟩
    · refine ⟨by simp, fun r rest' hx' => ?_⟩
      obtain ⟨rfl, rfl⟩ : Reply.fail = r ∧ rest = rest' := by simpa [hx] using hx'
      exact ⟨by simp, b, hwire, by simp⟩
    · refine ⟨by simp [hv.cmdIn_eq], fun r rest' hx' => ?_⟩
      obtain ⟨rfl, rfl⟩ : Reply.ok w = r ∧ rest = rest' := by simpa [hx] using hx'
      exact ⟨by simp [hv.xferIn_eq], b, hwire, by simp [hv.bus_eq]⟩
  · obtain ⟨hc, rfl⟩ | ⟨cw, rest, hc, ha⟩ := idle_step_cases hl hp h
    · exact ⟨rfl, rfl, by simp [hc]⟩
    · obtain ⟨k, c, rfl⟩ | ⟨_, _, _, _, ht⟩ := acceptWord_starts_or_answers ha
      · exact ⟨rfl, rfl, by simp [hc]⟩
      · rw [ht]
        exact ⟨rfl, rfl, by simp [hc]⟩

/-- Settles O34: a BUSY step that leaves the core idle is no wait; it is the abort, or a completion check that
completed. -/
theorem exchangeEndsByCompletionOrAbort : Obligations.ExchangeEndsByCompletionOrAbort := by
  intro s t hl h hb ht
  obtain ⟨-, rfl⟩ | ⟨b, rest, -, -, rfl⟩ | ⟨b, w, rest, v, -, -, hv, rfl⟩ := busy_step_cases hl hb h
  · exact absurd ht hb
  · refine .inr ?_
    obtain ⟨hk, he⟩ | ⟨hk, he⟩ := abortExchange_cases (logTransfer b .fail rest s.dropRst) <;> rw [he]
    · exact ⟨rfl, rfl, rfl, rfl, .inl ⟨hk, rfl, rfl⟩⟩
    · exact ⟨rfl, rfl, rfl, rfl, .inr ⟨hk, rfl, rfl⟩⟩
  · obtain ⟨hbusy, -⟩ := id hv
    have hkind : v.kind = s.kind := hv.kind_eq
    have hrsp : v.rsp = s.rsp := hv.rsp_eq
    obtain ⟨-, ha, hr, hk, he⟩ | ⟨-, -, -, hk, he⟩ | ⟨-, he⟩ := checkComplete_cases v
    · rw [he]
      exact .inl ⟨rfl, hr, ha, .inl ⟨hkind ▸ hk, rfl, hrsp ▸ rfl⟩⟩
    · rw [he]
      exact .inl ⟨rfl, rfl, rfl, .inr ⟨hkind ▸ hk, rfl, v.rxbuf, hrsp ▸ rfl⟩⟩
    · exact absurd (he ▸ ht) hbusy

end Sys2Proof.Proofs
end

section
/-! SUPPORT. Whole exchanges whose transfers all answer (R134): what the replies of an exchange leave in the
ReceiveBuffer, the transfers of a frame and of the fillers one after the other, and from these the exchange of a
SEND and of a READ from the transfer after the sync. -/

namespace Sys2Proof.Machine

/-! ### The replies of an exchange -/

/-- The ReceiveBuffer after all these host-order bytes, one after the other (R128). -/
def rxAcceptAll (host : List Byte) (s : State) : State := host.foldl (fun u r => rxAccept r u) s

@[simp] theorem rxAcceptAll_nil (s : State) : rxAcceptAll [] s = s := rfl

@[simp] theorem rxAcceptAll_cons (r : Byte) (host : List Byte) (s : State) :
    rxAcceptAll (r :: host) s = rxAcceptAll host (rxAccept r s) := rfl

theorem rxAcceptAll_append (host₁ host₂ : List Byte) (s : State) :
    rxAcceptAll (host₁ ++ host₂) s = rxAcceptAll host₂ (rxAcceptAll host₁ s) :=
  List.foldl_append

/-- After the length, the first REM bytes are appended and the others vanish (R128, R134). -/
theorem rxAcceptAll_of_latched (host : List Byte) {s : State} (ha : s.awaiting = false) :
    rxAcceptAll host s = { s with
      rxbuf := s.rxbuf ++ host.take s.rem.toNat
      rem := BitVec.ofNat 8 (s.rem.toNat - host.length) } := by
  induction host generalizing s with
  | nil => simp
  | cons r host ih =>
    by_cases hr : s.rem = 0#8
    · rw [rxAcceptAll_cons, rxAccept_of_complete r ha hr, ih ha]
      simp [hr]
    · have hpos : s.rem.toNat = (s.rem - 1#8).toNat + 1 := by bv_omega
      rw [rxAcceptAll_cons, ih (rxAccept_awaiting r s), rxAccept_of_remaining r ha hr, hpos]
      simp

/-! ### The transfers made so far -/

/-- The core at a point of an exchange: PHASE and TXI, the transfers of `wire` made and answered with `host`, and
`more` answers still to come. The ReceiveBuffer is that of `u`. -/
def State.progress (u : State) (p : Phase) (i : Byte) (wire host : List Byte) (more : List Reply) :
    State :=
  { u with phase := p, txi := i, bus := u.bus ++ transfersOf wire host, xferIn := more }

section

variable (u : State) (p : Phase) (i : Byte) (wire host : List Byte) (more : List Reply)

@[simp] theorem progress_phase : (u.progress p i wire host more).phase = p := rfl
@[simp] theorem progress_awaiting : (u.progress p i wire host more).awaiting = u.awaiting := rfl
@[simp] theorem progress_rem : (u.progress p i wire host more).rem = u.rem := rfl
@[simp] theorem progress_rstIn : (u.progress p i wire host more).rstIn = u.rstIn := rfl
@[simp] theorem progress_xferIn : (u.progress p i wire host more).xferIn = more := rfl

end

/-- A received byte writes the ReceiveBuffer only (R128). -/
theorem rxAccept_progress (r : Byte) (u : State) (p : Phase) (i : Byte) (wire host : List Byte)
    (more : List Reply) :
    rxAccept r (u.progress p i wire host more) = (rxAccept r u).progress p i wire host more := by
  cases ha : u.awaiting with
  | true =>
    rw [rxAccept_of_awaiting r ha, rxAccept_of_awaiting r (s := u.progress p i wire host more) ha]
    rfl
  | false =>
    by_cases hr : u.rem = 0#8
    · rw [rxAccept_of_complete r ha hr,
        rxAccept_of_complete r (s := u.progress p i wire host more) ha hr]
    · rw [rxAccept_of_remaining r ha hr,
        rxAccept_of_remaining r (s := u.progress p i wire host more) ha hr]
      rfl

/-- One more transfer (R9, R56). -/
theorem logTransfer_progress (t r : Byte) (u : State) (p : Phase) (i : Byte) {wire host : List Byte}
    (hw : wire.length = host.length) (more more' : List Reply) :
    logTransfer t (.ok (brev8 r)) more (u.progress p i wire host more') =
      u.progress p i (wire ++ [t]) (host ++ [r]) more := by
  simp [logTransfer, State.progress, transfersOf, List.zipWith_append hw]

theorem dropRst_of_rstIn_nil {s : State} (hr : s.rstIn = []) : s.dropRst = s := by
  cases s
  simp_all [State.dropRst]

theorem rstLow_of_rstIn_nil {s : State} (hr : s.rstIn = []) : s.rstLow := by
  simp [State.rstLow, hr]

@[simp] theorem rxAccept_rstIn (r : Byte) (s : State) : (rxAccept r s).rstIn = s.rstIn := by
  rw [rxAccept_frame]

/-- A number below 256 is a byte's value. -/
theorem toNat_ofNat_of_fits {n : Nat} (h : n < 2 ^ 8) : (BitVec.ofNat 8 n).toNat = n :=
  Nat.mod_eq_of_lt h

section

variable {u : State} {wire host : List Byte}

/-- One more transfer of an exchange that is answered with a byte (R111). -/
theorem step_progress (hr : u.rstIn = []) (hw : wire.length = host.length) {p : Phase} {i b : Byte}
    (r : Byte) (more : List Reply)
    (hb : (u.progress p i wire host (.ok (brev8 r) :: more)).wireOut = some b) :
    step (u.progress p i wire host (.ok (brev8 r) :: more)) =
      .next (receiveIn p r (u.progress p i (wire ++ [b]) (host ++ [r]) more)) := by
  have hr' : (u.progress p i wire host (.ok (brev8 r) :: more)).rstIn = [] := hr
  rw [step_of_received (rstLow_of_rstIn_nil hr') hb (progress_xferIn ..),
    dropRst_of_rstIn_nil hr', brev8_brev8, logTransfer_progress b r u p i hw, progress_phase]

/-- The wire byte of a FRAME transfer is the frame byte TXI, reversed (R85, R127). -/
theorem wireOut_progress_frame {i : Nat} (hi : i < 2 ^ 8) {b : Byte} (hb : u.frameBytes[i]? = some b)
    (more : List Reply) :
    (u.progress .frame (BitVec.ofNat 8 i) wire host more).wireOut = some (brev8 b) := by
  have htxi : (BitVec.ofNat 8 i).toNat = i := toNat_ofNat_of_fits hi
  refine wireOut_of_frame rfl ((frameByte_eq_getElem? _ _).trans ?_)
  exact (congrArg (u.frameBytes[·]?) htxi).trans hb

/-- A frame byte before the last goes on to the next (R127). -/
theorem step_progress_frame (hr : u.rstIn = []) (hfit : u.txbuf.length ≤ txMax)
    (hw : wire.length = host.length) {i : Nat} (hi : i < u.txbuf.length + 1) {b : Byte}
    (hb : u.frameBytes[i]? = some b) (r : Byte) (more : List Reply) :
    step (u.progress .frame (BitVec.ofNat 8 i) wire host (.ok (brev8 r) :: more)) =
      .next ((rxAccept r u).progress .frame (BitVec.ofNat 8 (i + 1)) (wire ++ [brev8 b])
        (host ++ [r]) more) := by
  have hlt : i < 2 ^ 8 := by simp only [txMax] at hfit; omega
  have hnot : (BitVec.ofNat 8 i).toNat ≠ u.txbuf.length + 1 := by
    rw [toNat_ofNat_of_fits hlt]
    exact hi.ne
  rw [step_progress hr hw r more (wireOut_progress_frame hlt hb _)]
  refine congrArg Host.Outcome.next ((frameReceive_of_not_last r hnot).trans ?_)
  rw [rxAccept_progress, BitVec.ofNat_add]
  rfl

/-- The last frame byte goes on to FILL (R127). -/
theorem step_progress_frame_last (hr : u.rstIn = []) (hfit : u.txbuf.length ≤ txMax)
    (hw : wire.length = host.length) {b : Byte} (hb : u.frameBytes[u.txbuf.length + 1]? = some b)
    (r : Byte) (more : List Reply) :
    step (u.progress .frame (BitVec.ofNat 8 (u.txbuf.length + 1)) wire host
        (.ok (brev8 r) :: more)) =
      .next (checkComplete ((rxAccept r u).progress .fill (BitVec.ofNat 8 (u.txbuf.length + 1))
        (wire ++ [brev8 b]) (host ++ [r]) more)) := by
  have hlt : u.txbuf.length + 1 < 2 ^ 8 := by simp only [txMax] at hfit; omega
  have hlast : (BitVec.ofNat 8 (u.txbuf.length + 1)).toNat = u.txbuf.length + 1 :=
    toNat_ofNat_of_fits hlt
  rw [step_progress hr hw r more (wireOut_progress_frame hlt hb _)]
  refine congrArg Host.Outcome.next ((frameReceive_of_last r hlast).trans ?_)
  rw [rxAccept_progress]
  rfl

/-- A filler pulls one byte (R129). -/
theorem step_progress_fill (hr : u.rstIn = []) (hw : wire.length = host.length) (i r : Byte)
    (more : List Reply) :
    step (u.progress .fill i wire host (.ok (brev8 r) :: more)) =
      .next (checkComplete ((rxAccept r u).progress .fill i (wire ++ [0x00#8]) (host ++ [r]) more)) := by
  rw [step_progress hr hw r more (wireOut_of_fill rfl)]
  simp only [receiveIn, fillReceive, rxAccept_progress]

end

/-! ### Runs of transfers -/

@[simp] theorem answers_cons (r : Byte) (host : List Byte) :
    answers (r :: host) = .ok (brev8 r) :: answers host := rfl

@[simp] theorem answers_nil : answers [] = [] := rfl

theorem answers_append (host₁ host₂ : List Byte) :
    answers (host₁ ++ host₂) = answers host₁ ++ answers host₂ := List.map_append

/-- All the received bytes write the ReceiveBuffer only (R42, R128). -/
theorem rxAcceptAll_frame (host : List Byte) (s : State) :
    rxAcceptAll host s = { s with
      rem := (rxAcceptAll host s).rem, awaiting := (rxAcceptAll host s).awaiting,
      rxbuf := (rxAcceptAll host s).rxbuf } := by
  induction host generalizing s with
  | nil => rfl
  | cons r host ih => exact (ih (rxAccept r s)).trans (by rw [rxAcceptAll_cons, rxAccept_frame])

@[simp] theorem rxAcceptAll_rstIn (host : List Byte) (s : State) :
    (rxAcceptAll host s).rstIn = s.rstIn := by rw [rxAcceptAll_frame]
@[simp] theorem rxAcceptAll_txbuf (host : List Byte) (s : State) :
    (rxAcceptAll host s).txbuf = s.txbuf := by rw [rxAcceptAll_frame]

/-- Received bytes do not touch the frame (R42). -/
@[simp] theorem rxAcceptAll_frameBytes (host : List Byte) (s : State) :
    (rxAcceptAll host s).frameBytes = s.frameBytes := by
  rw [rxAcceptAll_frame]
  rfl

/-- The frame bytes before the last, one after the other (R127, R134). -/
theorem runSteps_progress_frame {u : State} (hr : u.rstIn = []) (hfit : u.txbuf.length ≤ txMax)
    {wire host : List Byte} (hw : wire.length = host.length) (front : List Byte)
    (hle : front.length ≤ u.txbuf.length + 1) (more : List Reply) :
    runSteps front.length (u.progress .frame 0#8 wire host (answers front ++ more)) =
      .next ((rxAcceptAll front u).progress .frame (BitVec.ofNat 8 front.length)
        (wire ++ (u.frameBytes.take front.length).map brev8) (host ++ front) more) := by
  induction front using List.reverseRecOn generalizing more with
  | nil => simp
  | append_singleton front r ih =>
    rw [List.length_append, List.length_singleton] at hle ⊢
    obtain ⟨b, hb⟩ := frameByte_defined u front.length (by omega)
    rw [frameByte_eq_getElem?] at hb
    have hrun := ih (by omega) (.ok (brev8 r) :: more)
    rw [answers_append, answers_cons, answers_nil, List.append_assoc, List.singleton_append,
      runSteps_add hrun,
      runSteps_succ (step_progress_frame (u := rxAcceptAll front u) (by simpa using hr)
        (by simpa using hfit) (by simp; omega) (by simpa using hle) (by simpa using hb) r more)]
    simp [rxAcceptAll_append, List.take_add_one, hb]

/-- A whole frame, answered byte by byte, leads into FILL (R127, R134). -/
theorem runSteps_progress_whole_frame {u : State} (hr : u.rstIn = []) (hfit : u.txbuf.length ≤ txMax)
    {wire host during : List Byte} (hw : wire.length = host.length)
    (hlen : during.length = u.txbuf.length + 2) (more : List Reply) :
    runSteps during.length (u.progress .frame 0#8 wire host (answers during ++ more)) =
      .next (checkComplete ((rxAcceptAll during u).progress .fill
        (BitVec.ofNat 8 (u.txbuf.length + 1)) (wire ++ u.frameBytes.map brev8) (host ++ during)
        more)) := by
  obtain ⟨front, last, rfl⟩ : ∃ front last, during = front ++ [last] :=
    ⟨during.dropLast, during.getLast (by rintro rfl; cases hlen),
      (List.dropLast_concat_getLast _).symm⟩
  have hfront : front.length = u.txbuf.length + 1 := by simpa using hlen
  obtain ⟨b, hb⟩ := frameByte_defined u (u.txbuf.length + 1) le_rfl
  rw [frameByte_eq_getElem?] at hb
  have hframe : u.frameBytes.take (u.txbuf.length + 1) ++ [b] = u.frameBytes := by
    have htake := List.take_add_one (l := u.frameBytes) (i := u.txbuf.length + 1)
    rw [hb, Option.toList_some, List.take_of_length_le (by simp)] at htake
    exact htake.symm
  have hrun := runSteps_progress_frame hr hfit hw front hfront.le (.ok (brev8 last) :: more)
  rw [hfront] at hrun
  have hlast := step_progress_frame_last (u := rxAcceptAll front u)
    (wire := wire ++ (u.frameBytes.take (u.txbuf.length + 1)).map brev8) (host := host ++ front)
    (by simpa using hr) (by simpa using hfit) (by simp [hfront, hw]) (by simpa using hb) last more
  rw [rxAcceptAll_txbuf, List.append_assoc, ← List.map_singleton, ← List.map_append, hframe] at hlast
  rw [hlen, answers_append, answers_cons, answers_nil, List.append_assoc, List.singleton_append,
    runSteps_add (k := 1) hrun, runSteps_succ hlast, rxAcceptAll_append, List.append_assoc]
  rfl

/-- The fillers, one after the other, while the response is not complete (R129, R134). -/
theorem runSteps_progress_fill {u : State} (hr : u.rstIn = []) (ha : u.awaiting = false)
    (fill : List Byte) (hrem : fill.length ≤ u.rem.toNat) (i : Byte) {wire host : List Byte}
    (hw : wire.length = host.length) (more : List Reply) :
    runSteps fill.length (checkComplete (u.progress .fill i wire host (answers fill ++ more))) =
      .next (checkComplete ((rxAcceptAll fill u).progress .fill i
        (wire ++ List.replicate fill.length 0x00#8) (host ++ fill) more)) := by
  induction fill generalizing u wire host with
  | nil => simp
  | cons r fill ih =>
    rw [List.length_cons] at hrem ⊢
    have hne : u.rem ≠ 0#8 := by rintro h; simp [h] at hrem
    have hrem' : fill.length ≤ (rxAccept r u).rem.toNat := by
      rw [rxAccept_of_remaining r ha hne]
      bv_omega
    rw [checkComplete_of_incomplete (by simp [hne]), answers_cons, List.cons_append,
      runSteps_succ (step_progress_fill hr hw i r _),
      ih (by simpa using hr) (by simp) hrem' (by simp [hw])]
    simp [List.replicate_succ]

/-! ### Exchanges from the transfer after the sync -/

/-- The core with the length still to come: AWAIT is set (R126). -/
def State.awaitLength (s : State) : State := { s with awaiting := true }

/-- The core with the length of the response latched (R126, R128). -/
def State.latchLength (len : Byte) (s : State) : State := { s with rem := len, awaiting := false }

@[simp] theorem awaitLength_txbuf (s : State) : s.awaitLength.txbuf = s.txbuf := rfl
@[simp] theorem latchLength_txbuf (len : Byte) (s : State) :
    (s.latchLength len).txbuf = s.txbuf := rfl

/-- The byte received while the length is awaited is the length (R128). -/
theorem rxAccept_awaitLength (len : Byte) (s : State) :
    rxAccept len s.awaitLength = s.awaitLength.latchLength len :=
  rxAccept_of_awaiting len rfl

/-- What the replies leave in the ReceiveBuffer once `head` has latched the length (R128, R134). -/
theorem rxAcceptAll_of_head_latches {u : State} {head : List Byte} {len : Byte}
    (hlatch : rxAcceptAll head u = u.latchLength len) (data : List Byte) :
    rxAcceptAll (head ++ data) u = { u with
      awaiting := false, rxbuf := u.rxbuf ++ data.take len.toNat,
      rem := BitVec.ofNat 8 (len.toNat - data.length) } := by
  rw [rxAcceptAll_append, hlatch, rxAcceptAll_of_latched data rfl]
  rfl

/-- The exchange of a SEND from its first frame byte, its length `len` latched by the replies `head`: frame and
fillers go out, and the payload is consumed (R127, R129, R132, R134). -/
theorem runSteps_send_of_frame {u : State} (hk : u.kind = .cmd) (hr : u.rstIn = [])
    (hfit : u.txbuf.length ≤ txMax) {wire host head data : List Byte} {len : Byte}
    (hw : wire.length = host.length) (hhead : head.length ≤ 1)
    (hlatch : rxAcceptAll head u = u.latchLength len)
    (hdata : head.length + data.length = max (u.txbuf.length + 2) (head.length + len.toNat))
    (more : List Reply) :
    runSteps (head.length + data.length)
        (u.progress .frame 0#8 wire host (answers (head ++ data) ++ more)) =
      .next (emitDone opSend .ok [] { u with
        phase := .idle, txbuf := [], awaiting := false, rem := 0#8,
        rxbuf := u.rxbuf ++ data.take len.toNat, txi := BitVec.ofNat 8 (u.txbuf.length + 1),
        bus := u.bus ++ transfersOf (wire ++ (u.frameBytes.map brev8 ++
            List.replicate (head.length + data.length - (u.txbuf.length + 2)) 0x00#8))
          (host ++ (head ++ data)),
        xferIn := more }) := by
  -- The replies to the frame, and those to the fillers.
  obtain ⟨during, fill, rfl, hduring⟩ : ∃ during fill, data = during ++ fill ∧
      (head ++ during).length = u.txbuf.length + 2 :=
    ⟨data.take (u.txbuf.length + 2 - head.length), data.drop _, (List.take_append_drop ..).symm,
      by simp; omega⟩
  have hrecv := rxAcceptAll_of_head_latches hlatch
  simp only [List.length_append] at hdata
  have hlen : head.length + during.length = u.txbuf.length + 2 := by simpa using hduring
  have hfill : head.length + (during ++ fill).length - (u.txbuf.length + 2) = fill.length := by
    simp only [List.length_append]
    omega
  have hrem : fill.length ≤ (rxAcceptAll (head ++ during) u).rem.toNat := by
    rw [hrecv, toNat_ofNat_of_fits (by omega)]
    omega
  have hdone : BitVec.ofNat 8 (len.toNat - (during ++ fill).length) = 0#8 := by
    rw [List.length_append, Nat.sub_eq_zero_of_le (by omega)]
  have hframe := runSteps_progress_whole_frame hr hfit hw hduring (answers fill ++ more)
  calc runSteps (head.length + (during ++ fill).length)
        (u.progress .frame 0#8 wire host (answers (head ++ (during ++ fill)) ++ more))
      = runSteps ((head ++ during).length + fill.length)
          (u.progress .frame 0#8 wire host (answers (head ++ during) ++ (answers fill ++ more))) := by
        simp [Nat.add_assoc, answers_append]
    _ = _ := runSteps_add hframe
    _ = _ := runSteps_progress_fill (by simpa using hr) (by rw [hrecv]) fill hrem _
        (by simp [hw, hlen]) more
    _ = _ := by
        rw [← rxAcceptAll_append, List.append_assoc head, hrecv, hdone, hfill]
        simp only [List.append_assoc]
        exact congrArg Host.Outcome.next (checkComplete_of_send rfl rfl rfl hk)

/-- The exchange of a READ once its length is latched: fillers go out, and the bytes received are its answer
(R129, R132, R134). -/
theorem runSteps_read_of_latched {u : State} (hk : u.kind = .read) (ha : u.awaiting = false)
    (hr : u.rstIn = []) {wire host data : List Byte} (hw : wire.length = host.length)
    (hdata : data.length = u.rem.toNat) (i : Byte) (more : List Reply) :
    runSteps data.length (checkComplete (u.progress .fill i wire host (answers data ++ more))) =
      .next (emitDone opRead .ok (u.rxbuf ++ data) { u with
        phase := .idle, txi := i, awaiting := false, rem := 0#8, rxbuf := [],
        bus := u.bus ++ transfersOf (wire ++ List.replicate data.length 0x00#8) (host ++ data),
        xferIn := more }) := by
  rw [runSteps_progress_fill hr ha data hdata.le i hw more, rxAcceptAll_of_latched data ha, hdata,
    Nat.sub_self, ← hdata, List.take_length]
  exact congrArg Host.Outcome.next (checkComplete_of_read rfl ha rfl hk)

end Sys2Proof.Machine
end

section
/-! SUPPORT. An exchange up to the transfer after the sync: the acceptance of its word, the sync transfer and the
READ's length fetch (R122, R126, R131), with no level of `rst` to come. -/

namespace Sys2Proof.Machine

section

variable {s : State} {c r len : Byte} {rest : List Word} {more : List Reply}

/-- The word of a SEND of one of the six opcodes starts its exchange (R91, R123). -/
theorem step_of_send_word (hp : s.phase = .idle) (hr : s.rstIn = []) (hc : isCommandOpcode c = true)
    (hcmd : s.cmdIn = (0x4000#16 ||| c.setWidth 16) :: rest) :
    step s = .next (startSend c (takeOffer rest s)) :=
  (step_of_offered_instr (i := .send c) hr hp hcmd (decodeWord_or_setWidth opSend c)).trans
    (exec_send_of_isCommandOpcode hc _)

/-- The word of a READ starts its exchange (R91, R124). -/
theorem step_of_read_word (hp : s.phase = .idle) (hr : s.rstIn = [])
    (hcmd : s.cmdIn = 0x5000#16 :: rest) :
    step s = .next (startExchange .read (takeOffer rest s)) :=
  step_of_offered_instr (i := .read) hr hp hcmd rfl

/-- The sync transfer is the first of the exchange (R126). -/
theorem step_of_sync_answer (hp : s.phase = .sync) (hr : s.rstIn = [])
    (hx : s.xferIn = .ok (brev8 r) :: more) :
    step s = .next (syncReceive r (s.progress .sync s.txi [0x99#8] [r] more)) := by
  have hlog : logTransfer 0x99#8 (.ok (brev8 r)) more s = s.progress .sync s.txi [0x99#8] [r] more := by
    rw [← hp]
    rfl
  rw [step_of_sync_received (rstLow_of_rstIn_nil hr) hp hx, dropRst_of_rstIn_nil hr, brev8_brev8,
    hlog]

/-- Under NEXT_AFTER_SYNC it leaves the length awaited (R126). -/
theorem step_of_sync_nextAfterSync (hp : s.phase = .sync) (hr : s.rstIn = [])
    (hsrc : s.lenSrc = .nextAfterSync) (hx : s.xferIn = .ok (brev8 r) :: more) :
    step s = .next
      (s.awaitLength.progress (phaseAfterSync s.kind) s.txi [0x99#8] [r] more) :=
  (step_of_sync_answer hp hr hx).trans
    (congrArg Host.Outcome.next (syncReceive_awaits_length r hsrc))

/-- Under SYNC_REPLY it latches the length (R126). -/
theorem step_of_sync_syncReply (hp : s.phase = .sync) (hr : s.rstIn = [])
    (hsrc : s.lenSrc = .syncReply) (hx : s.xferIn = .ok (brev8 len) :: more) :
    step s = .next (checkComplete ((s.latchLength len).progress
      (phaseAfterSync s.kind) s.txi [0x99#8] [len] more)) :=
  (step_of_sync_answer hp hr hx).trans
    (congrArg Host.Outcome.next (syncReceive_of_syncReply len hsrc))

/-- A READ's length fetch latches the length under NEXT_AFTER_SYNC: two transfers (R131). -/
theorem runSteps_read_nextAfterSync (hp : s.phase = .sync) (hk : s.kind = .read) (hr : s.rstIn = [])
    (hsrc : s.lenSrc = .nextAfterSync)
    (hx : s.xferIn = .ok (brev8 r) :: .ok (brev8 len) :: more) :
    runSteps 2 s = .next (checkComplete ((s.latchLength len).progress .fill
      s.txi [0x99#8, 0x00#8] [r, len] more)) := by
  have hphase : phaseAfterSync s.kind = .fill := by rw [hk]; rfl
  have hsync := step_of_sync_nextAfterSync hp hr hsrc hx
  have hfetch := step_progress_fill (u := s.awaitLength) (wire := [0x99#8]) (host := [r]) hr rfl
    s.txi len more
  rw [hphase] at hsync
  rw [rxAccept_awaitLength] at hfetch
  rw [runSteps_succ hsync, runSteps_succ (k := 0) hfetch]
  rfl

/-- Under SYNC_REPLY no length fetch is made: one transfer (R131). -/
theorem runSteps_read_syncReply (hp : s.phase = .sync) (hk : s.kind = .read) (hr : s.rstIn = [])
    (hsrc : s.lenSrc = .syncReply) (hx : s.xferIn = .ok (brev8 len) :: more) :
    runSteps 1 s = .next (checkComplete ((s.latchLength len).progress .fill
      s.txi [0x99#8] [len] more)) := by
  have hphase : phaseAfterSync s.kind = .fill := by rw [hk]; rfl
  have hsync := step_of_sync_syncReply hp hr hsrc hx
  rw [hphase] at hsync
  exact runSteps_succ (k := 0) hsync

end

end Sys2Proof.Machine
end

section
/-! The settled statements about whole exchanges. -/

namespace Sys2Proof.Proofs

open Sys2Proof.Machine

/-- Settles O18: the length as it is latched (`runSteps_read_nextAfterSync`, `runSteps_read_syncReply`), and the check
after it, which completes only a READ of length 0. -/
theorem readFetchesTheLengthByAFiller : Obligations.ReadFetchesTheLengthByAFiller := by
  intro s x w rest hp hk hrx hrem hr
  obtain ⟨r, rfl⟩ : ∃ r, x = brev8 r := ⟨brev8 x, (brev8_brev8 x).symm⟩
  obtain ⟨len, rfl⟩ : ∃ len, w = brev8 len := ⟨brev8 w, (brev8_brev8 w).symm⟩
  rw [brev8_brev8]
  refine ⟨fun hsrc hx hlen => ?_, fun hsrc hx hlen => ?_, fun hsrc hx hlen => ?_⟩
  · rw [runSteps_read_nextAfterSync hp hk hr hsrc hx,
      checkComplete_of_incomplete (by simp [State.latchLength, hlen])]
    rfl
  · rw [runSteps_read_nextAfterSync hp hk hr hsrc hx,
      checkComplete_of_read (s := (s.latchLength len).progress ..) rfl rfl hlen hk]
    simp [emitDone, State.progress, State.latchLength, transfersOf, hrx, hrem, opRead]
  · rw [runSteps_read_syncReply hp hk hr hsrc hx,
      checkComplete_of_incomplete (by simp [State.latchLength, hlen])]
    rfl

/-- Settles O52: the word starts the exchange, the sync transfer leaves the length awaited, the reply to the first
frame byte latches it, and the rest is `runSteps_send_of_frame`. -/
theorem sendExchangeNextAfterSync : Obligations.SendExchangeNextAfterSync := by
  intro s c r₀ len data rest more hp hr hsrc hfit hc hcmd hx hdata
  have hsync := step_of_sync_nextAfterSync (s := startSend c (takeOffer rest s)) rfl hr hsrc hx
  have hsent := runSteps_send_of_frame (u := (startSend c (takeOffer rest s)).awaitLength)
    (wire := [0x99#8]) (host := [r₀]) (head := [len]) (data := data) rfl hr hfit rfl le_rfl
    (rxAccept_awaitLength len _) (by simp; omega) more
  have hfillers : 1 + data.length - (s.txbuf.length + 2) = len.toNat - s.txbuf.length - 1 := by omega
  refine ⟨by simp [sendWire]; omega, ?_⟩
  calc runSteps (data.length + 3) s
      = runSteps (data.length + 2) _ := runSteps_succ (step_of_send_word hp hr hc hcmd)
    _ = runSteps (data.length + 1) _ := runSteps_succ hsync
    _ = runSteps ([len].length + data.length) _ := by rw [Nat.add_comm]; rfl
    _ = _ := hsent
    _ = _ := by
      simp [emitDone, sendWire, startExchange, takeOffer, State.frameBytes, opSend,
        State.awaitLength, hfillers]

/-- Settles O53: likewise, with the sync reply as the length. -/
theorem sendExchangeSyncReply : Obligations.SendExchangeSyncReply := by
  intro s c len data rest more hp hr hsrc hfit hc hcmd hx hdata
  have hsync := step_of_sync_syncReply (s := startSend c (takeOffer rest s)) rfl hr hsrc hx
  rw [checkComplete_of_incomplete (by simp)] at hsync
  have hsent := runSteps_send_of_frame (u := (startSend c (takeOffer rest s)).latchLength len)
    (wire := [0x99#8]) (host := [len]) (head := []) (data := data) rfl hr hfit rfl (Nat.zero_le _)
    rfl (by simp; omega) more
  have hfillers : data.length - (s.txbuf.length + 2) = len.toNat - s.txbuf.length - 2 := by omega
  refine ⟨by simp [sendWire]; omega, ?_⟩
  calc runSteps (data.length + 2) s
      = runSteps (data.length + 1) _ := runSteps_succ (step_of_send_word hp hr hc hcmd)
    _ = runSteps data.length _ := runSteps_succ hsync
    _ = runSteps ([].length + data.length) _ := by rw [Nat.add_comm]; rfl
    _ = _ := hsent
    _ = _ := by
      simp [emitDone, sendWire, startExchange, takeOffer, State.frameBytes, opSend,
        State.latchLength, hfillers]

/-- Settles O54: the word starts the exchange, one or two transfers latch the length, and the rest is
`runSteps_read_of_latched`. -/
theorem readExchangeReturnsTheResponse : Obligations.ReadExchangeReturnsTheResponse := by
  intro s r₀ len data rest more hp hr hcmd hdata
  have hread := step_of_read_word hp hr hcmd
  refine ⟨fun hsrc hx => ⟨by simp [readWire], ?_⟩, fun hsrc hx => ⟨by simp [readWire], ?_⟩⟩
  · have hlength := runSteps_read_nextAfterSync (s := startExchange .read (takeOffer rest s))
      (more := answers data ++ more) rfl rfl hr hsrc hx
    have hfilled := runSteps_read_of_latched (wire := [0x99#8, 0x00#8]) (host := [r₀, len])
      (u := (startExchange .read (takeOffer rest s)).latchLength len) rfl rfl hr rfl hdata 0#8 more
    calc runSteps (len.toNat + 3) s
        = runSteps (len.toNat + 2) _ := runSteps_succ hread
      _ = runSteps (2 + data.length) _ := by rw [hdata, Nat.add_comm]
      _ = runSteps data.length _ := runSteps_add hlength
      _ = _ := hfilled
      _ = _ := by
        simp [emitDone, readWire, startExchange, takeOffer, opRead, State.latchLength, hdata,
          List.replicate_succ]
  · have hlength := runSteps_read_syncReply (s := startExchange .read (takeOffer rest s))
      (more := answers data ++ more) rfl rfl hr hsrc hx
    have hfilled := runSteps_read_of_latched (wire := [0x99#8]) (host := [len])
      (u := (startExchange .read (takeOffer rest s)).latchLength len) rfl rfl hr rfl hdata 0#8 more
    calc runSteps (len.toNat + 2) s
        = runSteps (len.toNat + 1) _ := runSteps_succ hread
      _ = runSteps (1 + data.length) _ := by rw [hdata, Nat.add_comm]
      _ = runSteps data.length _ := runSteps_add hlength
      _ = _ := hfilled
      _ = _ := by
        simp [emitDone, readWire, startExchange, takeOffer, opRead, State.latchLength, hdata]

end Sys2Proof.Proofs
end

section
/-! SUPPORT. How many transfers an exchange has left at most: a bound that every answered transfer lowers (R130,
R134). -/

namespace Sys2Proof.Machine

/-- The most transfers an exchange can still make. Before the length is latched it counts as 255; after it the frame
bytes and the response bytes still to come run side by side (R134). -/
def State.transfersLeft (s : State) : Nat :=
  match s.phase with
  | .idle => 0
  | .sync => 257
  | .frame => if s.awaiting then 256 else max (s.txbuf.length + 2 - s.txi.toNat) s.rem.toNat
  | .fill => if s.awaiting then 256 else s.rem.toNat

section

variable {s : State}

theorem transfersLeft_of_idle (hp : s.phase = .idle) : s.transfersLeft = 0 := by
  simp only [State.transfersLeft, hp]

theorem transfersLeft_of_sync (hp : s.phase = .sync) : s.transfersLeft = 257 := by
  simp only [State.transfersLeft, hp]

theorem transfersLeft_of_frame (hp : s.phase = .frame) (ha : s.awaiting = false) :
    s.transfersLeft = max (s.txbuf.length + 2 - s.txi.toNat) s.rem.toNat := by
  simp [State.transfersLeft, hp, ha]

theorem transfersLeft_of_fill (hp : s.phase = .fill) (ha : s.awaiting = false) :
    s.transfersLeft = s.rem.toNat := by
  simp [State.transfersLeft, hp, ha]

theorem transfersLeft_of_awaiting (hp : s.phase = .frame ∨ s.phase = .fill)
    (ha : s.awaiting = true) : s.transfersLeft = 256 := by
  obtain hp | hp := hp <;> simp [State.transfersLeft, hp, ha]

/-- After the sync transfer at most 256 are left: the frame has at most 256 bytes and the response 255. -/
theorem transfersLeft_le_of_synced (hp : s.phase = .frame ∨ s.phase = .fill)
    (hfit : s.txbuf.length ≤ txMax) : s.transfersLeft ≤ 256 := by
  have hrem : s.rem.toNat ≤ 255 := by bv_omega
  simp only [txMax] at hfit
  cases ha : s.awaiting with
  | true => exact (transfersLeft_of_awaiting hp ha).le
  | false =>
    obtain hp | hp := hp
    · rw [transfersLeft_of_frame hp ha]
      omega
    · rw [transfersLeft_of_fill hp ha]
      omega

/-- The completion check makes no transfer (R132). -/
theorem transfersLeft_checkComplete_le (s : State) :
    (checkComplete s).transfersLeft ≤ s.transfersLeft := by
  by_cases hp : (checkComplete s).phase = .idle
  · rw [transfersLeft_of_idle hp]
    exact Nat.zero_le _
  · rw [checkComplete_of_busy hp]

/-- A byte received after the length leaves one fewer to come, if any (R128). -/
theorem rxAccept_rem_toNat (r : Byte) (ha : s.awaiting = false) :
    (rxAccept r s).rem.toNat = s.rem.toNat - 1 := by
  by_cases hr : s.rem = 0#8
  · rw [rxAccept_of_complete r ha hr, hr]
    rfl
  · rw [rxAccept_of_remaining r ha hr]
    bv_omega

theorem phaseAfterSync_frame_or_fill (k : Kind) :
    phaseAfterSync k = .frame ∨ phaseAfterSync k = .fill := by
  cases k <;> simp [phaseAfterSync]

theorem transfersLeft_syncReceive_lt (r : Byte) (hs : s.Inv) (hp : s.phase = .sync) :
    (syncReceive r s).transfersLeft < s.transfersLeft := by
  obtain ⟨⟨hfit, -⟩, -⟩ := hs
  rw [transfersLeft_of_sync hp, Nat.lt_succ_iff]
  cases hsrc : s.lenSrc with
  | nextAfterSync =>
    rw [syncReceive_of_nextAfterSync r hsrc]
    exact (transfersLeft_checkComplete_le _).trans
      (transfersLeft_le_of_synced (phaseAfterSync_frame_or_fill s.kind) hfit)
  | syncReply =>
    rw [syncReceive_of_syncReply r hsrc]
    exact (transfersLeft_checkComplete_le _).trans
      (transfersLeft_le_of_synced (phaseAfterSync_frame_or_fill s.kind) hfit)

theorem transfersLeft_frameReceive_lt (r : Byte) (hs : s.Inv) (hp : s.phase = .frame) :
    (frameReceive r s).transfersLeft < s.transfersLeft := by
  obtain ⟨⟨hfit, -⟩, -, ⟨-, hframe, -⟩, hbound, -⟩ := hs
  obtain ⟨-, hfirst⟩ := hframe hp
  have hle : s.txi.toNat ≤ s.txbuf.length + 1 := hbound (by simp [hp])
  simp only [txMax] at hfit
  by_cases hlast : s.txi.toNat = s.txbuf.length + 1
  · have ha : s.awaiting = false := by
      refine Bool.eq_false_iff.mpr fun ha => ?_
      simp [hfirst ha] at hlast
    rw [frameReceive_of_last r hlast, transfersLeft_of_frame hp ha]
    refine (transfersLeft_checkComplete_le _).trans_lt ?_
    have hfill : { rxAccept r s with phase := .fill }.transfersLeft = s.rem.toNat - 1 :=
      (transfersLeft_of_fill rfl (by simp)).trans (rxAccept_rem_toNat r ha)
    omega
  · have hnext : (s.txi + 1#8).toNat = s.txi.toNat + 1 := by bv_omega
    rw [frameReceive_of_not_last r hlast, transfersLeft_of_frame (by simpa using hp) (by simp)]
    simp only [rxAccept_txbuf, hnext]
    cases ha : s.awaiting with
    | true =>
      have hr : r.toNat ≤ 255 := by bv_omega
      rw [transfersLeft_of_awaiting (.inl hp) ha, rxAccept_of_awaiting r ha]
      simp only
      omega
    | false =>
      rw [transfersLeft_of_frame hp ha, rxAccept_rem_toNat r ha]
      omega

theorem transfersLeft_fillReceive_lt (r : Byte) (hs : s.Inv) (hp : s.phase = .fill) :
    (fillReceive r s).transfersLeft < s.transfersLeft := by
  obtain ⟨-, -, ⟨-, -, hfill, -⟩, -⟩ := hs
  refine (transfersLeft_checkComplete_le _).trans_lt ?_
  rw [transfersLeft_of_fill (by simpa using hp) (rxAccept_awaiting r s)]
  cases ha : s.awaiting with
  | true =>
    have hr : r.toNat ≤ 255 := by bv_omega
    rw [transfersLeft_of_awaiting (.inr hp) ha, rxAccept_of_awaiting r ha]
    simp only
    omega
  | false =>
    have hne : s.rem ≠ 0#8 := (hfill hp).resolve_left (by simp [ha])
    rw [transfersLeft_of_fill hp ha, rxAccept_rem_toNat r ha]
    bv_omega

/-- Every byte received brings the end of the exchange nearer. -/
theorem transfersLeft_receiveIn_lt (r : Byte) (hs : s.Inv) (hb : s.phase ≠ .idle) :
    (receiveIn s.phase r s).transfersLeft < s.transfersLeft := by
  cases hp : s.phase with
  | idle => exact absurd hp hb
  | sync => exact transfersLeft_syncReceive_lt r hs hp
  | frame => exact transfersLeft_frameReceive_lt r hs hp
  | fill => exact transfersLeft_fillReceive_lt r hs hp

/-- A BUSY core has a transfer to make (R111). -/
theorem transfersLeft_pos (hs : s.Inv) (hb : s.phase ≠ .idle) : 0 < s.transfersLeft :=
  Nat.zero_lt_of_lt (transfersLeft_receiveIn_lt 0#8 hs hb)

/-- A BUSY core has a byte on `xfer_tx`: TXI stays within the frame (R30, R111). -/
theorem wireOut_of_inv (hs : s.Inv) (hb : s.phase ≠ .idle) : ∃ b, s.wireOut = some b := by
  cases hp : s.phase with
  | idle => exact absurd hp hb
  | sync => exact ⟨_, wireOut_of_sync hp⟩
  | frame =>
    obtain ⟨-, -, -, hbound, -⟩ := hs
    obtain ⟨b, hf⟩ := frameByte_defined s s.txi.toNat (hbound hb)
    exact ⟨_, wireOut_of_frame hp hf⟩
  | fill => exact ⟨_, wireOut_of_fill hp⟩

/-- A BUSY step takes one level of `rst` off the input (R20). -/
theorem busy_step_rstIn {t : State} (hl : s.rstLow) (hb : s.phase ≠ .idle) (h : step s = .next t) :
    t.rstIn = s.rstIn.tail := by
  obtain ⟨-, rfl⟩ | ⟨b, rest, -, -, rfl⟩ | ⟨b, w, rest, v, -, -, hv, rfl⟩ := busy_step_cases hl hb h
  · rfl
  · simp
  · simp [hv.rstIn_eq]

/-- A BUSY core with an answer to take makes its transfer, and fewer are left: none after a failure. -/
theorem step_lowers_transfersLeft (hs : s.Inv) (hb : s.phase ≠ .idle) (hl : s.rstLow) {reply : Reply}
    {rest : List Reply} (hx : s.xferIn = reply :: rest) :
    ∃ t, step s = .next t ∧ t.transfersLeft < s.transfersLeft := by
  obtain ⟨b, hwire⟩ := wireOut_of_inv hs hb
  cases reply with
  | ok w =>
    exact ⟨_, step_of_received hl hwire hx,
      transfersLeft_receiveIn_lt (s := logTransfer b (.ok w) rest s.dropRst) (brev8 w) hs hb⟩
  | fail =>
    refine ⟨_, step_of_failed hl hwire hx, ?_⟩
    rw [transfersLeft_of_idle (abortExchange_phase _)]
    exact transfersLeft_pos hs hb

end

/-- The core is idle after at most `n` transfers, with the word of its exchange answered (R81, R130). -/
def State.EndsWithin (n : Nat) (s : State) : Prop :=
  ∃ (k : Nat) (t : State), k ≤ n ∧ runSteps k s = .next t ∧ t.phase = .idle ∧
    t.bus.length = s.bus.length + k ∧ t.accepted = s.accepted

theorem endsWithin_of_idle (n : Nat) {s : State} (hp : s.phase = .idle) : s.EndsWithin n :=
  ⟨0, s, Nat.zero_le _, rfl, hp, rfl, rfl⟩

/-- One transfer before an exchange that ends within `n`. -/
theorem State.EndsWithin.of_step {n : Nat} {s t : State} (hstep : step s = .next t)
    (hbus : t.bus.length = s.bus.length + 1) (hacc : t.accepted = s.accepted)
    (ht : t.EndsWithin n) : s.EndsWithin (n + 1) := by
  obtain ⟨k, u, hk, hrun, hidle, hbus', hacc'⟩ := ht
  exact ⟨k + 1, u, Nat.succ_le_succ hk, (runSteps_succ hstep).trans hrun, hidle, by omega,
    hacc'.trans hacc⟩

/-- An exchange with as many answers to take as it has transfers left ends within them (R130). -/
theorem endsWithin_of_transfersLeft_le {n : Nat} {s : State} (hs : s.Inv) (hr : s.rstIn = [])
    (hleft : s.transfersLeft ≤ n) (hx : n ≤ s.xferIn.length) : s.EndsWithin n := by
  induction n generalizing s with
  | zero =>
    exact endsWithin_of_idle 0 (by_contra fun hb => (transfersLeft_pos hs hb).not_ge hleft)
  | succ n ih =>
    by_cases hp : s.phase = .idle
    · exact endsWithin_of_idle _ hp
    obtain ⟨reply, rest, hx'⟩ := List.exists_cons_of_length_pos (Nat.zero_lt_of_lt hx)
    have hl : s.rstLow := rstLow_of_rstIn_nil hr
    obtain ⟨t, hstep, hlower⟩ := step_lowers_transfersLeft hs hp hl hx'
    obtain ⟨hbusy, -⟩ := Proofs.busyStepsTransferAndAcceptNoWord s t hl hstep
    obtain ⟨hcmd, hanswer⟩ := hbusy hp
    obtain ⟨hrest, b, -, hbus⟩ := hanswer reply rest hx'
    have hacc : t.accepted + t.cmdIn.length = s.accepted + s.cmdIn.length :=
      Proofs.everyAcceptedWordGetsOneDone s t hl hstep
    have hr' : t.rstIn = [] := by rw [busy_step_rstIn hl hp hstep, hr]; rfl
    refine .of_step hstep (by simp [hbus]) ?_
      (ih (inv_step hs hstep) hr' (by omega) (by simpa [hrest, hx'] using hx))
    rw [hcmd] at hacc
    omega

end Sys2Proof.Machine
end

section
/-! The settled statement about the length of an exchange. -/

namespace Sys2Proof.Proofs

open Sys2Proof.Machine

/-- Settles O55: an exchange has at most 257 transfers left before its sync (`transfersLeft_of_sync`), each lowers
that bound (`step_lowers_transfersLeft`), and the DONE owed is the one emitted. -/
theorem exchangesEndWithin257Transfers : Obligations.ExchangesEndWithin257Transfers := by
  intro s hs hp hr hx
  obtain ⟨k, t, hk, hrun, hidle, hbus, hacc⟩ :=
    endsWithin_of_transfersLeft_le hs hr (transfersLeft_of_sync hp).le hx
  rw [accepted_of_idle hidle, accepted_of_busy (by simp [hp])] at hacc
  exact ⟨k, t, hk, hrun, hidle, hbus, hacc⟩

end Sys2Proof.Proofs
end

section
/-! SUPPORT. The packets of a step: the one that a delimiter makes of the candidate held, and none in a transfer,
in a reset or in a wait (R152, R153). -/

namespace Sys2Proof.Machine

/-! ### Histories, event by event -/

@[simp] theorem packetsOf_nil : packetsOf [] = [] := rfl

@[simp] theorem packetsOf_pkt_cons (data : List Byte) (events : List Event) :
    packetsOf (.pkt data :: events) = data :: packetsOf events := rfl

@[simp] theorem packetsOf_done_cons (op : Nibble) (st : Status) (data : List Byte)
    (events : List Event) : packetsOf (.done op st data :: events) = packetsOf events := rfl

@[simp] theorem packetsOf_map_pkt (packets : List (List Byte)) :
    packetsOf (packets.map .pkt) = packets := by
  simp [packetsOf, List.filterMap_map]

@[simp] theorem doneCount_nil : doneCount [] = 0 := rfl

@[simp] theorem doneCount_done_cons (op : Nibble) (st : Status) (data : List Byte)
    (events : List Event) : doneCount (.done op st data :: events) = doneCount events + 1 := by
  simp [doneCount]

/-! ### The packets of a step -/

/-- The completion check emits no packet (R132). -/
@[simp] theorem packetsOf_checkComplete (s : State) :
    packetsOf (checkComplete s).rsp = packetsOf s.rsp := by
  obtain ⟨-, -, -, -, h⟩ | ⟨-, -, -, -, h⟩ | ⟨-, h⟩ := checkComplete_cases s <;> simp [h]

/-- An abort emits no packet (R133). -/
@[simp] theorem packetsOf_abortExchange (s : State) :
    packetsOf (abortExchange s).rsp = packetsOf s.rsp := by
  obtain ⟨-, h⟩ | ⟨-, h⟩ := abortExchange_cases s <;> simp [h]

/-- A step from `s` to `t` emits no packet, or the candidate without its header, longer than that header (R152,
R153). -/
def EmitsCandidateAtMost (s t : State) : Prop :=
  packetsOf t.rsp = packetsOf s.rsp ∨
    hdrLen < s.cand.length ∧ packetsOf t.rsp = packetsOf s.rsp ++ [s.cand.drop hdrLen]

theorem AnswersWithOp.emitsCandidateAtMost {op : Nibble} {s t : State} (h : AnswersWithOp op s t) :
    EmitsCandidateAtMost s t := by
  obtain ⟨packets, st, data, hrsp, rfl | ⟨rfl, hlen⟩, -⟩ := h
  · exact .inl (by simp [hrsp])
  · exact .inr ⟨hlen, by simp [hrsp]⟩

/-- Packets come from the acceptance of a word only, a delimiter's PXBYTE; every other step emits none. -/
theorem step_emitsCandidateAtMost {s t : State} (h : step s = .next t) : EmitsCandidateAtMost s t := by
  by_cases hl : s.rstLow
  · by_cases hp : s.phase = .idle
    · obtain ⟨-, rfl⟩ | ⟨cw, rest, -, ha⟩ := idle_step_cases hl hp h
      · exact .inl rfl
      · obtain ⟨-, hrsp⟩ | hans := acceptWord_starts_or_answersWithOp ha
        · exact .inl (congrArg packetsOf hrsp)
        · exact hans.emitsCandidateAtMost
    · obtain ⟨-, rfl⟩ | ⟨b, rest, -, -, rfl⟩ | ⟨b, w, rest, v, -, -, hv, rfl⟩ :=
        busy_step_cases hl hp h
      · exact .inl rfl
      · exact .inl (packetsOf_abortExchange _)
      · exact .inl (by simp [hv.rsp_eq])
  · obtain ⟨rest, rfl⟩ := step_of_reset (not_not.mp hl) h
    exact .inl rfl

end Sys2Proof.Machine
end

section
/-! SUPPORT. A stream fed to PX: PXSTART, the PXBYTEs, PXEND (R150, R152, R154), against `extract` (R151). The
candidate of `extract` grows without a limit; PX holds its first 255 bytes, and OVF says that there are more. -/

namespace Sys2Proof.Machine

/-! ### The core inside a stream -/

/-- The core in a stream whose candidate in progress is `cand`, as PX holds it: these events emitted since `s`, and
these words still offered. -/
def State.streaming (s : State) (cand : List Byte) (st : Status) (events : List Event)
    (words : List Word) : State :=
  { s with
    cand := cand.take pxMax, ovf := decide (pxMax < cand.length), lastErr := st, cmdIn := words,
    rsp := s.rsp ++ events }

/-- A candidate within PX's capacity is held whole, with OVF clear (R31, R32). -/
theorem streaming_of_fits (s : State) {cand : List Byte} (h : cand.length ≤ pxMax) (st : Status)
    (events : List Event) (words : List Word) : s.streaming cand st events words =
      { s with cand := cand, ovf := false, lastErr := st, cmdIn := words, rsp := s.rsp ++ events } := by
  simp [State.streaming, List.take_of_length_le h, h]

section

variable {s : State} {rest : List Word}

/-- PXSTART begins the stream with no candidate (R150). -/
theorem step_pxstart_streaming (hr : s.rstIn = []) (hp : s.phase = .idle)
    (hc : s.cmdIn = makeWord opPxstart 0#8 :: rest) :
    step s = .next (s.streaming [] .ok [.done opPxstart .ok []] rest) :=
  step_of_offered_instr (i := .pxstart) hr hp hc (decodeWord_makeWord opPxstart 0#8)

/-- PXEND leaves no candidate, whatever trails (R154). -/
theorem step_pxend_streaming (hr : s.rstIn = []) (hp : s.phase = .idle) (cand : List Byte)
    (st : Status) (events : List Event) :
    step (s.streaming cand st events (makeWord opPxend 0#8 :: rest)) =
      .next (s.streaming [] .ok (events ++ [.done opPxend .ok []]) rest) := by
  calc step (s.streaming cand st events (makeWord opPxend 0#8 :: rest))
      = exec .pxend (s.streaming cand st events rest) :=
        step_of_offered_instr (s := s.streaming cand st events (makeWord opPxend 0#8 :: rest)) hr hp
          rfl (decodeWord_makeWord opPxend 0#8)
    _ = .next (s.streaming [] .ok (events ++ [.done opPxend .ok []]) rest) := by
        simp [exec, execPxend, emitDone, clearCandidate, State.streaming]

/-- PXBYTE in a stream is its execution on the candidate held (R57, R74). -/
theorem step_pxbyte_streaming (hr : s.rstIn = []) (hp : s.phase = .idle) (b : Byte) (cand : List Byte)
    (st : Status) (events : List Event) :
    step (s.streaming cand st events (makeWord opPxbyte b :: rest)) =
      execPxbyte b (s.streaming cand st events rest) :=
  step_of_offered_instr (s := s.streaming cand st events (makeWord opPxbyte b :: rest)) hr hp rfl
    (decodeWord_makeWord opPxbyte b)

/-- A delimiter emits the packet of a candidate within PX's capacity, as `extract` does (R151, R152). -/
theorem execPxbyte_delim_streaming {cand : List Byte} (hfit : cand.length ≤ pxMax) (st : Status)
    (events : List Event) : execPxbyte delim (s.streaming cand st events rest) =
      .next (s.streaming [] .ok
        (events ++ ((packetOf cand).map .pkt ++ [.done opPxbyte .ok []])) rest) := by
  rw [streaming_of_fits s hfit]
  by_cases hlen : hdrLen < cand.length
  · rw [execPxbyte_of_packet rfl rfl hlen]
    simp [packetOf, hlen, emitDone, clearCandidate, emitPkt, State.streaming]
  · rw [execPxbyte_of_no_packet rfl fun h => hlen h.2]
    simp [packetOf, hlen, emitDone, clearCandidate, State.streaming]

/-- The status of a byte that is no delimiter (R152). -/
def appendStatus (cand : List Byte) : Status := if cand.length < pxMax then .ok else .errPxovf

/-- Any other byte extends the candidate of `extract`; PX holds it while there is room (R151, R152). -/
theorem execPxbyte_append_streaming {b : Byte} (hb : b ≠ delim) (cand : List Byte) (st : Status)
    (events : List Event) : execPxbyte b (s.streaming cand st events rest) =
      .next (s.streaming (cand ++ [b]) (appendStatus cand)
        (events ++ [.done opPxbyte (appendStatus cand) []]) rest) := by
  by_cases hroom : cand.length < pxMax
  · have hfit : (cand ++ [b]).length ≤ pxMax := by simpa using hroom
    rw [streaming_of_fits s hroom.le, streaming_of_fits s hfit, execPxbyte_of_room hb hroom]
    simp [appendStatus, hroom, emitDone, pushCandidate]
  · have hfull : pxMax ≤ cand.length := not_lt.mp hroom
    rw [execPxbyte_of_full hb (by simp [State.streaming, hfull])]
    simp [appendStatus, hroom, emitDone, State.streaming, List.take_append_of_le_length hfull,
      Nat.lt_succ_of_le hfull]

end

/-! ### The events of the PXBYTEs -/

/-- What R155 asks of the events of the PXBYTEs of a buffer, from a candidate in progress on: the packets of
`extract`, a DONE for each byte, and an overflow only past 255 bytes. -/
structure FeedEvents (cand buffer : List Byte) (new : List Event) : Prop where
  packets : packetsOf new = extractFrom cand buffer
  dones : doneCount new = buffer.length
  statuses : ∀ op st data, .done op st data ∈ new →
    st = .ok ∨ (st = .errPxovf ∧ op = opPxbyte ∧ pxMax < cand.length + buffer.length)

theorem feedEvents_nil (cand : List Byte) : FeedEvents cand [] [] :=
  ⟨rfl, rfl, by simp⟩

/-- A delimiter's events before those of the bytes after it. -/
theorem FeedEvents.delim_cons {buffer : List Byte} {new : List Event} (h : FeedEvents [] buffer new)
    (cand : List Byte) : FeedEvents cand (delim :: buffer)
      ((packetOf cand).map .pkt ++ [.done opPxbyte .ok []] ++ new) where
  packets := by simp [extractFrom, h.packets]
  dones := by simp [h.dones]
  statuses op st data hmem := by
    simp only [List.mem_append, List.mem_map, reduceCtorEq, and_false, exists_false, false_or,
      List.mem_singleton, Event.done.injEq] at hmem
    obtain ⟨-, rfl, -⟩ | hmem := hmem
    · exact .inl rfl
    · obtain hok | ⟨hst, hop, hlong⟩ := h.statuses op st data hmem
      · exact .inl hok
      · exact .inr ⟨hst, hop, by simp at hlong ⊢; omega⟩

/-- Likewise the event of any other byte, an overflow when 255 bytes came before it. -/
theorem FeedEvents.append_cons {b : Byte} {cand buffer : List Byte} {new : List Event} (hb : b ≠ delim)
    (h : FeedEvents (cand ++ [b]) buffer new) :
    FeedEvents cand (b :: buffer) ([.done opPxbyte (appendStatus cand) []] ++ new) where
  packets := by simp [extractFrom, hb, h.packets]
  dones := by simp [h.dones]
  statuses op st data hmem := by
    simp only [List.singleton_append, List.mem_cons, Event.done.injEq] at hmem
    obtain ⟨rfl, rfl, -⟩ | hmem := hmem
    · by_cases hroom : cand.length < pxMax
      · exact .inl (if_pos hroom)
      · exact .inr ⟨if_neg hroom, rfl, by simp; omega⟩
    · simpa [Nat.add_assoc, Nat.add_comm 1] using h.statuses op st data hmem

/-- The PXBYTEs of a buffer whose terminated candidates PX can hold, from a candidate in progress on (R155). -/
theorem runSteps_pxbyte_streaming {s : State} (hr : s.rstIn = []) (hp : s.phase = .idle)
    (rest : List Word) (buffer : List Byte) (cand : List Byte) (st : Status) (events : List Event)
    (hfit : ∀ c ∈ terminatedFrom cand buffer, c.length ≤ pxMax) :
    ∃ (cand' : List Byte) (st' : Status) (new : List Event), FeedEvents cand buffer new ∧
      runSteps buffer.length
          (s.streaming cand st events (buffer.map (makeWord opPxbyte) ++ rest)) =
        .next (s.streaming cand' st' (events ++ new) rest) := by
  induction buffer generalizing cand st events with
  | nil => exact ⟨cand, st, [], feedEvents_nil cand, by simp⟩
  | cons b buffer ih =>
    have hstep := step_pxbyte_streaming (rest := buffer.map (makeWord opPxbyte) ++ rest) hr hp b cand
      st events
    by_cases hb : b = delim
    · subst hb
      simp only [terminatedFrom, if_true, List.forall_mem_cons] at hfit
      obtain ⟨hheld, hlater⟩ := hfit
      obtain ⟨cand', st', new, hnew, hrun⟩ := ih [] .ok _ hlater
      rw [execPxbyte_delim_streaming hheld] at hstep
      exact ⟨cand', st', _, hnew.delim_cons cand, by
        rw [← List.append_assoc, ← hrun]; exact runSteps_succ hstep⟩
    · simp only [terminatedFrom, if_neg hb] at hfit
      obtain ⟨cand', st', new, hnew, hrun⟩ := ih (cand ++ [b]) (appendStatus cand) _ hfit
      rw [execPxbyte_append_streaming hb] at hstep
      exact ⟨cand', st', _, hnew.append_cons hb, by
        rw [← List.append_assoc, ← hrun]; exact runSteps_succ hstep⟩

/-- The words of a whole stream: PXSTART begins with no candidate, and PXEND drops what trails (R92, R155). -/
theorem runSteps_expandExtract {s : State} (hr : s.rstIn = []) (hp : s.phase = .idle)
    {buffer : List Byte} {rest : List Word} (hc : s.cmdIn = expandExtract buffer ++ rest)
    (hfit : ∀ c ∈ terminated buffer, c.length ≤ pxMax) :
    ∃ fed : List Event, FeedEvents [] buffer fed ∧ runSteps (buffer.length + 2) s =
      .next (s.streaming [] .ok
        ([.done opPxstart .ok []] ++ fed ++ [.done opPxend .ok []]) rest) := by
  have hc' : s.cmdIn = makeWord opPxstart 0#8 ::
      (buffer.map (makeWord opPxbyte) ++ makeWord opPxend 0#8 :: rest) := by
    simpa [expandExtract] using hc
  obtain ⟨cand, st, fed, hfed, hrun⟩ := runSteps_pxbyte_streaming hr hp (makeWord opPxend 0#8 :: rest)
    buffer [] .ok [.done opPxstart .ok []] hfit
  refine ⟨fed, hfed, ?_⟩
  calc runSteps (buffer.length + 2) s
      = runSteps (buffer.length + 1) _ := runSteps_succ (step_pxstart_streaming hr hp hc')
    _ = runSteps 1 _ := runSteps_add hrun
    _ = runSteps 0 _ := runSteps_succ (step_pxend_streaming hr hp cand st _)

end Sys2Proof.Machine
end

section
/-! The settled statements about the packet extractor. -/

namespace Sys2Proof.Proofs

open Sys2Proof.Machine

/-- Settles O9: PXSTART is `clearCandidate` and one DONE. -/
theorem pxstartDiscardsTheCandidate : Obligations.PxstartDiscardsTheCandidate :=
  fun _ => ⟨rfl, rfl⟩

/-- Settles O10: the word decodes by its OP (`decodeWord_or_setWidth`), and each case of R152 has its equation. -/
theorem pxbyteFeedsTheCandidate : Obligations.PxbyteFeedsTheCandidate := by
  intro b s
  refine ⟨decodeWord_or_setWidth opPxbyte b, fun hb ho hlen => ?_, fun hb hnone => ?_,
    fun hb hroom => execPxbyte_of_room hb hroom,
    fun hb hfull => execPxbyte_of_full hb (Nat.not_lt.mpr hfull.ge)⟩
  · refine (execPxbyte_of_packet hb ho hlen).trans ?_
    simp [emitDone, clearCandidate, emitPkt, hdrLen, opPxbyte]
  · refine execPxbyte_of_no_packet hb fun ⟨ho, hlen⟩ => ?_
    obtain hovf | hshort := hnone
    · simp [ho] at hovf
    · exact absurd hlen (Nat.not_lt.mpr hshort)

/-- Settles O11: PXEND is `clearCandidate` and one DONE. -/
theorem pxendDropsTrailingBytes : Obligations.PxendDropsTrailingBytes :=
  fun _ => ⟨rfl, rfl⟩

/-- Settles O12: a step's packet is the candidate without its header (`step_emitsCandidateAtMost`), and under the
invariants a candidate has at most 255 bytes, no delimiter among them. -/
theorem packetsCarryTheCandidateWithoutHeader : Obligations.PacketsCarryTheCandidateWithoutHeader := by
  rintro s t ⟨⟨-, hcap, hdelim, -⟩, -⟩ h
  obtain hnone | ⟨hlen, hone⟩ := step_emitsCandidateAtMost h
  · exact ⟨[], by simp [hnone], by simp, by simp⟩
  · refine ⟨[s.cand.drop hdrLen], hone, by simp, ?_⟩
    simp only [List.mem_singleton, forall_eq, List.length_drop, hdrLen, pxMax] at *
    exact ⟨trivial, by omega, by omega, fun b hb => hdelim b (List.mem_of_mem_drop hb)⟩

/-- Settles O13: the run of the whole stream (`runSteps_expandExtract`), with the events of its PXBYTEs between the
DONEs of PXSTART and PXEND. -/
theorem extractionAgreesWithTheSourceFunction : Obligations.ExtractionAgreesWithTheSourceFunction := by
  intro buffer rest s hp hr hc hfit
  obtain ⟨fed, hfed, hrun⟩ := runSteps_expandExtract hr hp hc hfit
  refine ⟨_, _, hrun, rfl, ?_, ?_, fun op st data hmem => ?_, rfl⟩
  · simp [hfed.packets, extract]
  · simp [hfed.dones]
  · simp only [List.mem_append, List.mem_singleton, Event.done.injEq] at hmem
    obtain (⟨-, rfl, -⟩ | hmem) | ⟨-, rfl, -⟩ := hmem
    · exact .inl rfl
    · simpa [opPxbyte, pxMax] using hfed.statuses op st data hmem
    · exact .inl rfl

end Sys2Proof.Proofs
end

section
/-! SUPPORT. The six frame commands: the frame that carries a given opcode and payload (R85), the length of the one
payload that varies (R175), and the word that carries a frame opcode, accepted by an idle core (R170, log 6). -/

namespace Sys2Proof.Machine

/-! ### Frames in host order -/

/-- A frame is determined by the opcode and the payload held (R85). -/
theorem frameBytes_of_payload {s : State} {c : Byte} {payload : List Byte} (hop : s.txop = c)
    (hbuf : s.txbuf = payload) :
    s.frameBytes = BitVec.ofNat 8 (payload.length + 1) :: c :: payload := by
  rw [State.frameBytes, hop, hbuf]

/-- SEND_PACKET's payload is three bytes, the data and the delimiter (R175). -/
@[simp] theorem sendPacketPayload_length (channel resendCount resendDelay : Byte) (data : List Byte) :
    (sendPacketPayload channel resendCount resendDelay data).length = data.length + 4 := by
  simp [sendPacketPayload]

/-! ### The word that carries a frame opcode -/

/-- The word written as SEND with a frame opcode put in is the one that carries that opcode (R91, R170). -/
theorem send_or_setWidth_eq_carrier (c : Byte) :
    (0x4000#16 ||| c.setWidth 16 : Word) = (Code.opcode c).carrier :=
  or_setWidth_eq_makeWord opSend c

/-- An idle core offered the word that carries a code executes the instruction the code decodes to (R57, R74). -/
theorem step_of_offered_carrier {s : State} {code : Code} {i : Instr} {rest : List Word} (hl : s.rstLow)
    (hp : s.phase = .idle) (hc : s.cmdIn = code.carrier :: rest) (hd : decode code = .ok i) :
    step s = exec i (takeOffer rest s.dropRst) := by
  rw [step_of_offer hl hp hc, acceptWord_carrier hd]

end Sys2Proof.Machine
end

section
/-! The settled statements about the six frame commands. -/

namespace Sys2Proof.Proofs

open Sys2Proof.Machine

/-- Settles O8: each of the six opcodes decodes to its frame command, which starts the exchange of the SEND that
carries it (`exec_of_decodeOpcode`). -/
theorem frameCommandsStartTheExchange : Obligations.FrameCommandsStartTheExchange := by
  intro s
  have started (c : Byte) (i : Instr) (hd : decodeOpcode c = .ok i) :
      exec i s = .next (startSend c s) := (exec_of_decodeOpcode hd).2 s
  exact ⟨started 0x07#8 .reset rfl, started 0x01#8 .getState rfl, started 0x02#8 .getVersion rfl,
    started 0x03#8 .getPacket rfl, started 0x04#8 .sendPacket rfl, started 0x08#8 .setLed rfl⟩

/-- Settles O22: the opcode and the payload give the frame (`frameBytes_of_payload`); only SEND_PACKET's length byte
depends on the data (`sendPacketPayload_length`). -/
theorem commandFramesMatchTheirLayouts : Obligations.CommandFramesMatchTheirLayouts := by
  intro s
  refine ⟨fun c => frameBytes_of_payload, fun channel t => frameBytes_of_payload,
    fun channel count delay data hop hbuf => ?sendPacket, fun index value => frameBytes_of_payload⟩
  case sendPacket =>
    rw [frameBytes_of_payload hop hbuf, sendPacketPayload_length]
    rfl

/-- Settles O24: the word offered is the one that carries the opcode (`send_or_setWidth_eq_carrier`), and a step runs
what a carried code decodes to (`step_of_offered_carrier`). -/
theorem stepRunsTheCarriedFrameCommand : Obligations.StepRunsTheCarriedFrameCommand := by
  intro s c rest i hl hp hc hd
  rw [send_or_setWidth_eq_carrier] at hc
  exact step_of_offered_carrier hl hp hc hd

end Sys2Proof.Proofs
end

section
/-! SUPPORT. Which operations and steps answer a next state: every operation and every accepted word, every step of
an idle core, and from the invariants every BUSY step but the hang of R130. -/

namespace Sys2Proof.Machine

/-! ### Operations and words -/

/-- Every way an operation can end is a next state (R200). -/
theorem exec_answers_next (i : Instr) (s : State) : ∃ t, exec i s = .next t := by
  obtain ⟨_, _, _, he⟩ | he | ⟨_, -, he⟩ | ⟨_, -, he⟩ | he | ⟨_, he⟩ | ⟨-, -, he⟩ | ⟨_, -, -, he⟩ |
    ⟨-, he⟩ := exec_cases i s
  all_goals exact ⟨_, he⟩

/-- A word that is not legal does not decode (R74), so its acceptance is one DONE with its own OP (R202). -/
theorem acceptWord_of_illegal {cw : Word} (h : legalWord cw = false) (s : State) :
    acceptWord cw s = .next (emitDone (cwOp cw) .errIllegal [] s) := by
  obtain ⟨i, hd, -⟩ | ⟨_, -, ha⟩ := acceptWord_cases cw s
  · have hlegal : legalWord cw = true := (decodeWord_ok_iff_legalWord cw).mp ⟨i, hd⟩
    exact absurd hlegal (by simp [h])
  · exact ha

/-- An accepted word answers a next state, legal or not (R200). -/
theorem acceptWord_answers_next (cw : Word) (s : State) : ∃ t, acceptWord cw s = .next t := by
  obtain ⟨i, -, ha⟩ | ⟨_, -, ha⟩ := acceptWord_cases cw s
  · rw [ha]
    exact exec_answers_next i s
  · exact ⟨_, ha⟩

/-! ### Steps -/

/-- An idle core answers a next state, with a word to accept or with none (R57, R200). -/
theorem idle_step_answers_next {s : State} (hl : s.rstLow) (hp : s.phase = .idle) :
    ∃ t, step s = .next t := by
  cases hc : s.cmdIn with
  | nil => exact ⟨_, Proofs.idleCoreWaitsForAWord s hl hp hc⟩
  | cons cw rest =>
    rw [step_of_offer hl hp hc]
    exact acceptWord_answers_next cw _

/-- A BUSY core that meets the invariants has a byte on `xfer_tx` (`wireOut_of_inv`), so without an answer to take
it waits for a level of `rst` to come, and hangs when there is none (R130, R231). -/
theorem stepsOrHangs_of_silent {s : State} (hs : s.Inv) (hb : s.phase ≠ .idle) (hx : s.xferIn = []) :
    s.StepsOrHangs := by
  obtain ⟨b, hwire⟩ := wireOut_of_inv hs hb
  obtain ⟨hhangs, hwaits, hresets⟩ := Proofs.silentTransportLeavesTheCoreStuck s b hwire hx
  match hr : s.rstIn with
  | [] => exact .inr ⟨hhangs hr, ⟨hb, hx⟩, hr⟩
  | false :: rest => exact .inl ⟨_, hwaits rest hr⟩
  | true :: rest =>
    obtain ⟨t, ht, -⟩ := hresets rest hr
    exact .inl ⟨t, ht⟩

/-- With `rst` at 0 the core is idle, or BUSY with an answer to take, which makes the transfer
(`step_lowers_transfersLeft`), or BUSY with none. -/
theorem stepsOrHangs_of_rstLow {s : State} (hs : s.Inv) (hl : s.rstLow) : s.StepsOrHangs := by
  by_cases hp : s.phase = .idle
  · exact .inl (idle_step_answers_next hl hp)
  · cases hx : s.xferIn with
    | nil => exact stepsOrHangs_of_silent hs hp hx
    | cons reply rest =>
      obtain ⟨t, ht, -⟩ := step_lowers_transfersLeft hs hp hl hx
      exact .inl ⟨t, ht⟩

end Sys2Proof.Machine
end

section
/-! The settled statements about errors and stops. -/

namespace Sys2Proof.Proofs

open Sys2Proof.Machine

/-- Settles O58: a reset answers whatever the state (`step_eq_takeReset`), and with `rst` at 0 the core's PHASE and the
transport's answers decide (`stepsOrHangs_of_rstLow`). -/
theorem onlyASilentTransportStopsTheCore : Obligations.OnlyASilentTransportStopsTheCore := by
  intro s hs
  match hr : s.rstIn with
  | true :: rest => exact .inl ⟨_, step_eq_takeReset hr⟩
  | [] | false :: _ => exact stepsOrHangs_of_rstLow hs (by simp [State.rstLow, hr])

/-- Settles O26: the step is the acceptance of the word offered first (`step_of_offer`), which for an illegal word is
one `emitDone` (`acceptWord_of_illegal`). -/
theorem illegalWordOnlyReports : Obligations.IllegalWordOnlyReports := by
  intro s cw rest hl hp hc h
  calc step s = acceptWord cw (takeOffer rest s.dropRst) := step_of_offer hl hp hc
    _ = .next (emitDone (cwOp cw) .errIllegal [] (takeOffer rest s.dropRst)) := acceptWord_of_illegal h _

/-- Settles O38: an operation answers a next state (`exec_answers_next`), by an exchange start or by events and
buffers, and neither writes the five fields (`exec_starts_or_answers`). -/
theorem everyOperationCompletes : Obligations.EveryOperationCompletes := by
  intro i s
  obtain ⟨t, he⟩ := exec_answers_next i s
  refine ⟨t, he, ?_⟩
  obtain ⟨k, c, rfl⟩ | ⟨_, _, _, _, ht⟩ := exec_starts_or_answers he
  · exact ⟨rfl, rfl, rfl, rfl, rfl⟩
  · rw [ht]
    exact ⟨rfl, rfl, rfl, rfl, rfl⟩

end Sys2Proof.Proofs
end

section
/-! The settled statement about reset in the middle of an exchange. -/

namespace Sys2Proof.Proofs

open Sys2Proof.Machine

/-- R231: reset as a write to the state it finds: the registers and flags it clears, everything else kept. -/
theorem takeReset_eq_update (s : State) :
    takeReset s = { s with
      phase := .idle, kind := .cmd, awaiting := false, rem := 0#8, rxbuf := [], txbuf := [],
      txop := 0x00#8, txi := 0#8, cand := [], ovf := false, lastErr := .ok } := rfl

/-- Settles O42: with `rst` at 1 the step is the reset alone, whatever the state was (`step_eq_takeReset`), and the
reset clears the registers and flags and keeps LEN_SRC, the histories and the inputs (`takeReset_eq_update`). -/
theorem resetEndsEverythingInOneStep : Obligations.ResetEndsEverythingInOneStep := by
  intro s rest hr
  rw [step_eq_takeReset hr, takeReset_eq_update]

end Sys2Proof.Proofs
end
